-- ==== Sys2Proof/Word.lean ====
section
/-! DEFINITION. The word types of the part's lines: bytes of frames and of the flash, 16-bit words. -/
namespace Sys2Proof

/-- A byte of a frame (Chapter 11) or of the show flash. -/
abbrev Byte := BitVec 8

/-- A 16-bit word: a check word, an audio sample, a window of a restraint line, a wheel count. -/
abbrev Half := BitVec 16

end Sys2Proof
end

