-- ==== Sys2Proof/Syntax.lean ====
section
/-! DEFINITION. The commands of the part: one constructor for each row of spec/opcode_table.json. The table gives
the rows no operands; those chosen are what the rule of the row reads from outside (log 7, log 9, log 32, log 44). -/
namespace Sys2Proof

/-- A running duration event (R137): HOLD_LONG, BACKOFF_LONG, or BAR_CREEP of one seat 1–6. -/
inductive DurationKey where
  | holdLong
  | backoffLong
  | barCreep (seat : Nat)
  deriving DecidableEq, Repr

/-- The completion of a flash read (R168): the voice (0–7) it is for, the local time of its grant, and the samples read
(log 44). -/
structure Completion where
  voice : Nat
  granted : Nat
  samples : List Half
  deriving DecidableEq, Repr

/-- The commands. `source` and `target` are the header's address bytes (Table 11.1). -/
inductive Instr where
  /-- R180: the reset input is held, or power is applied. -/
  | fullReset
  /-- R181: the configuration block has been read; `block` is its 256 bytes. -/
  | configBlockRead (block : List Byte)
  /-- R182, R183: the show image has been read; `image` is its bytes from flash address 256 (Table 11.7). -/
  | imageLoadEnd (image : List Byte)
  /-- R185: the listen expiry. -/
  | listenExpiry
  /-- R1: carrier detect comes on. -/
  | carrierOn
  /-- R1: 50 µs of carrier-off time completed. -/
  | gapMet
  /-- R2: the slots remaining reach 0. -/
  | countdownEnd
  /-- R1: the own transmission ends. -/
  | transmissionEnd
  /-- R3: the beacon timer expires. -/
  | beaconTimerExpiry
  /-- R8: a queued CUE frame reaches its lateness expiry. -/
  | cueLatenessExpiry
  /-- R16: the silence timer reaches the link silence time. -/
  | silenceTimerExpiry
  /-- R11: the own-address time passes 2000 ms. -/
  | ownAddressTimeExpiry
  /-- R10: carrier detect goes off after the frame of these bytes. -/
  | receiveFrame (frame : List Byte)
  /-- R95: a STOP with scope RIDE is received. -/
  | stopRide (source : Nat)
  /-- R95: a STOP with scope ZONE is received. -/
  | stopZone (source zone : Nat)
  /-- R61: a RESUME is received. -/
  | resume (source target : Nat)
  /-- R60: a DISPATCH is received. -/
  | dispatch (source target : Nat)
  /-- R113: an UNLOCK is received; bit s − 1 of `seats` names seat s (Table 11.2). -/
  | unlock (source target : Nat) (seats : Byte)
  /-- R129: a CLEAR is received; bit n of `conditions` names condition n, `options` as section 11.1. -/
  | clear (source target : Nat) (conditions : BitVec 32) (options : Byte)
  /-- R62: a RETIRE with form IMMEDIATE is received. -/
  | retireImmediate (source target : Nat)
  /-- R63: a RETIRE with form AT_STATION is received. -/
  | retireAtStation (source target : Nat)
  /-- R63: a RETIRE with form LIFT is received. -/
  | retireLift (source target : Nat)
  /-- R27: a FORGET naming a peer address is received. -/
  | forget (source target address : Nat)
  /-- R15: a QUERY with a report kind and a selector is received. -/
  | query (source target kind selector : Nat)
  /-- R186: a RESTART is received. -/
  | restart (source target : Nat)
  /-- R25: the age of this address's record exceeds the stale time. -/
  | peerStale (address : Nat)
  /-- R25, R28: the age of this address's record exceeds the lost time. -/
  | peerLost (address : Nat)
  /-- R36: the wheel counts at a control interval, as the quadrature counters stand. -/
  | odometryAdvance (left right : Half)
  /-- R39: a marker report: its code, its lateral offset (signed, mm), and whether the line delivered it complete. -/
  | markerReport (code : BitVec 12) (lateral : Half) (complete : Bool)
  /-- R64: the permit, demand and steering of a control interval. -/
  | permitCompute
  /-- R76: the drive fault input goes from released to asserted. -/
  | driveFault
  /-- R76: the local stop input goes from released to asserted. -/
  | localStop
  /-- R88: the evaluation of a control interval. -/
  | claimIntervalEvaluation
  /-- R99: a window ends; `positions` are the 8-bit position inputs of seats 1 to 6. -/
  | windowEnd (positions : List Byte)
  /-- R115: the unlock pulse of this seat ends. -/
  | unlockPulseExpiry (seat : Nat)
  /-- R137: this running event first exceeds the threshold of this counter (1–4). -/
  | durationThreshold (event : DurationKey) (counter : Nat)
  /-- R148: the local time advances by one ms. -/
  | pendingAdvance
  /-- R153: the local time reaches the watch expiry of this cue. -/
  | watchExpiry (cue : Nat)
  /-- R169: one output frame. -/
  | outputFrame
  /-- R168: a read completes; `samples` says which, and what it read. -/
  | fetchComplete (samples : Completion)
  /-- R168: the read in progress is not done at its timeout. -/
  | fetchTimeout
  /-- R165: the local time reaches the wait expiry of this voice (0–7). -/
  | waitExpiry (voice : Nat)
  /-- R180: the reset input is released. -/
  | fullResetEnd
  /-- R76: the drive fault input goes from asserted to released. -/
  | driveFaultInputReleased
  /-- R76: the local stop input goes from asserted to released. -/
  | localStopInputReleased
  /-- R99: one sample of the line test; bit k of `returns` is the return input of line k. -/
  | lineTestSample (returns : BitVec 12)
  deriving DecidableEq, Repr

end Sys2Proof
end

