-- ==== Sys2Proof/Decode.lean ====
section
/-! DEFINITION. The commands that words of the opcode table spell: none, since no row of spec/opcode_table.json
gives bits (log 27). -/
namespace Sys2Proof

/-- The command a table word spells. The table's 46 rows give no bits, so no word spells one. -/
def decodeTableWord (_nbits _w : Nat) : Option Instr := none

end Sys2Proof
end

