-- ==== Sys2Proof/Config.lean ====
section
/-! DEFINITION. The fixed figures of the part (Table 0.3 and the rules that state them), and the values the
manual leaves free. -/
namespace Sys2Proof.Config

/-- The value of the n-th free draw. R1 draws the backoff slots "uniformly from 0 to 2^k − 1" and R3 draws the
jitter "uniformly from 0 to 3 ms": only the range is stated. No body: nothing can be proved about it (log 4). -/
opaque freeNat : Nat → Nat

/-- The n-th free choice between two orders of one event: R123, "Occurrences from different blocks that reach
the unit together may be taken in either order". No body (log 5). -/
opaque freeOrder : Nat → Bool

/-- R6: the transmit queue holds at most 8 frames. -/
def queueCap : Nat := 8
/-- R147: the pending list holds at most 16 entries. -/
def waitingCap : Nat := 16
/-- R80: the claim list holds at most two entries. -/
def claimCap : Nat := 2
/-- R36: the largest advance of one control interval, µm. -/
def maxAdvance : Nat := 60000
/-- R41, R43: the marker window, 150 mm in µm. -/
def markerWindow : Nat := 150000
/-- R44: the saturation of the distance since marker, 65,535 mm in µm. -/
def maxSince : Nat := 65535000
/-- R11: the own-address time becomes none once it passes this, ms. -/
def ownAddressLimit : Nat := 2000
/-- R24: the saturation of a record's age, ms. -/
def maxAge : Nat := 65535
/-- R151: the scene clock wraps here. -/
def sceneWrap : Nat := 16777216
/-- R151: a scene time is reached when it lies behind the estimate by less than this. -/
def sceneHalf : Nat := 8388608
/-- R174: a drift up to this many samples (20 ms) is left as it is. -/
def driftLimit : Nat := 480
/-- R175: the frames of a crossfade. -/
def crossfade : Nat := 64
/-- R166: the samples of a full block. -/
def blockSize : Nat := 256
/-- R167: a read's timeout comes this long after its grant, ms. -/
def readTimeout : Nat := 2
/-- R106: in mode OFF the verify run of a LOCKED seat stops here. -/
def maxVerifyRun : Nat := 188

end Sys2Proof.Config
end

