-- ==== Sys2Proof/Machine/State.lean ====
section
/-! DEFINITION. The state of the part, block by block (Table 0.1), and its value right after a full reset. Plain
data: INVENTORY.md lists every field with the rule that names it. -/
namespace Sys2Proof.Machine

/-! ## Names of states and kinds -/

/-- Table 4.3. -/
inductive MotionState where
  | start | fault | parked | ready | running | holding | stopping | stopped | estop
  deriving DecidableEq, Repr

/-- Table 3.5. -/
inductive Confidence where
  | unfixed | good | reckoning | lost
  deriving DecidableEq, Repr

/-- Table 1.3. -/
inductive AccessState where
  | idle | gap | countdown | sending
  deriving DecidableEq, Repr

/-- Section 0.7: the station kinds. -/
inductive StationKind where
  | vehicle | scene | load | operator
  deriving DecidableEq, Repr

/-- Table 2.1: the states of a filled record (an EMPTY record is `none`). -/
inductive PeerState where
  | fresh | stale | lost
  deriving DecidableEq, Repr

/-- Table 1.5: the commands, in the order of their codes 2–9 and 11 (Table 11.2). -/
inductive CommandKind where
  | stop | resume | dispatch | unlock | clear | retire | forget | query | restart
  deriving DecidableEq, Repr

/-- Table 1.6. -/
inductive RefusalReason where
  | unknownSource | wrongSourceKind | wrongState | moving | notAtStation | notVerified | levelTooHigh | retired
  | positionNotGood | queueFull
  deriving DecidableEq, Repr

/-- Table 6.2: the judgement of a window. -/
inductive LineJudgement where
  | closed | opened | mismatch
  deriving DecidableEq, Repr

/-- Table 6.3. -/
inductive SeatState where
  | unused | opened | locked | verified | unlocking | fault
  deriving DecidableEq, Repr

/-- R110. -/
inductive Summary where
  | notAllVerified | allVerified | fault
  deriving DecidableEq, Repr

/-- Table 6.1. -/
inductive LineMode where
  | lfsr | fixed | off
  deriving DecidableEq, Repr

/-- Table 7.1. -/
inductive Announcement where
  | none | counting | uncounted
  deriving DecidableEq, Repr

/-- Table 7.6, in the order of the numbers 0–15. -/
inductive TallyEvent where
  | none | markerMiss | markerUnknown | frameBad | framesLost | holdLong | barCreep | lineMismatch | steerLimit
  | cueDropped | cueLate | voiceSteal | soundUnderrun | zoneYield | backoffLong | speedClamp
  deriving DecidableEq, Repr

/-- Table 7.5: the phase qualifier. -/
inductive Phase where
  | any | moving | parked | stopped
  deriving DecidableEq, Repr

/-- Table 7.5: the zone qualifier. -/
inductive ZoneQualifier where
  | any | marked | unmarked
  deriving DecidableEq, Repr

/-- Table 9.3. -/
inductive VoiceState where
  | idle | fetching | waiting | playing | fading
  deriving DecidableEq, Repr

/-- Table 10.1. -/
inductive LoadProgress where
  | loading | listening | done | failed
  deriving DecidableEq, Repr

/-- Table 5.2. -/
inductive Stage where
  | intent | held
  deriving DecidableEq, Repr

/-! ## Configured values (Table 10.2) -/

/-- The plain configured values in force. The condition values are held in the condition records and the counter
values in the counters; the station address is `Link.ownAddress`. -/
structure Settings where
  flashSize : Nat
  beaconPeriod : Nat
  silenceTime : Nat
  cueLateness : Nat
  staleTime : Nat
  lostTime : Nat
  odoScale : Nat
  bodyLength : Nat
  berthTolerance : Nat
  margin : Nat
  decel : Nat
  accel : Nat
  slow : Nat
  lateralGain : Nat
  fadeDistance : Nat
  curvatureLimit : Nat
  stopClip : Option Nat
  resumeClip : Option Nat
  claimDistance : Nat
  settleTime : Nat
  seatCount : Nat
  testMode : LineMode
  fixedPattern : Half
  verifyTime : Nat
  unlockPulse : Nat
  lockMinimum : Nat
  creepLimit : Nat
  resync : Nat
  deriving DecidableEq, Repr

/-- The defaults of Table 10.2 and Table 6.1. -/
def Settings.default : Settings where
  flashSize := 16777216
  beaconPeriod := 50
  silenceTime := 500
  cueLateness := 100
  staleTime := 150
  lostTime := 1000
  odoScale := 1000
  bodyLength := 3000
  berthTolerance := 20
  margin := 1000
  decel := 800
  accel := 500
  slow := 300
  lateralGain := 32
  fadeDistance := 2000
  curvatureLimit := 1500
  stopClip := none
  resumeClip := none
  claimDistance := 8000
  settleTime := 120
  seatCount := 6
  testMode := .lfsr
  fixedPattern := 0b1100101001110110#16
  verifyTime := 500
  unlockPulse := 800
  lockMinimum := 160
  creepLimit := 8
  resync := 1000

/-! ## Link Controller (Chapter 1) -/

/-- The last-refusal record, when not empty (R14). -/
structure LastRefusal where
  kind : CommandKind
  reason : RefusalReason
  source : Nat
  deriving DecidableEq, Repr

/-- A frame of the transmit queue (R6): destination and body are fixed when it is enqueued. A CUE keeps its stamp
(R7) and its cue id (R154). -/
inductive QueuedFrame where
  | cue (stamp id dest : Nat) (body : List Byte)
  | report (dest : Nat) (body : List Byte)
  deriving DecidableEq, Repr

/-- Table 1.1, with the lines and marks R1, R2 and R10 need. -/
structure Link where
  access : AccessState
  /-- Backoff exponent (R1). -/
  k : Nat
  slots : Nat
  /-- The carrier detect line. -/
  carrier : Bool
  /-- Carrier detect has been off for 50 µs or more (R1, last sentence; log 8). -/
  quiet : Bool
  /-- The frame now on the carrier overlaps an own transmission or the image load (R2, R10; log 8). -/
  frameLost : Bool
  /-- The local time of the beacon timer's next expiry, or stopped (R3). -/
  beaconTimer : Option Nat
  /-- The time a waiting beacon became due (R3). -/
  beaconDue : Option Nat
  seq : Byte
  queue : List QueuedFrame
  /-- The bytes of the own transmission in progress (R2). -/
  onAir : Option (List Byte)
  ownAddress : Nat
  /-- When the last own-address beacon was heard; the own-address time runs from it (R11). -/
  ownHeard : Option Nat
  lastRefusal : Option LastRefusal
  /-- When the running silence timer started (R16). -/
  silence : Option Nat
  /-- The persistent cause of LINK_SILENT (R16). -/
  silent : Bool
  deriving DecidableEq, Repr

/-! ## Peer Table (Chapter 2) -/

/-- A filled peer record (Table 2.1). The age is the time since `received` (R24). -/
structure Peer where
  state : PeerState
  kind : StationKind
  lastSeq : Nat
  received : Nat
  framesLost : Nat
  /-- The beacon's body as received, from its station kind byte (Table 11.3). -/
  body : List Byte
  routePos : Option Nat
  deriving DecidableEq, Repr

/-! ## Route Store and Position Tracker (Chapter 3) -/

/-- A marker held in a segment (R34). -/
structure Marker where
  offset : Nat
  code : Nat
  deriving DecidableEq, Repr

/-- Table 3.1. Zone 255 is no zone. -/
structure Segment where
  length : Nat
  curvature : Int
  ceiling : Nat
  zone : Nat
  markers : List Marker
  deriving DecidableEq, Repr

/-- A zone record (R33). -/
structure ZoneRecord where
  id : Nat
  capacity : Nat
  marked : Bool
  deriving DecidableEq, Repr

/-- The Route Store's contents (R31, R33). `berthDepth` is the distance from the station zone's entry to the berth. -/
structure Route where
  id : Nat
  segments : List Segment
  zones : List ZoneRecord
  stationZone : Nat
  berthDepth : Nat
  deriving DecidableEq, Repr

/-- Table 3.3, with the wheel counts of R36. -/
structure Tracker where
  /-- Position p, µm. -/
  pos : Nat
  conf : Confidence
  /-- The code of the expected marker. -/
  expected : Option Nat
  /-- Travel in µm after which the front has passed the expected marker by 150 mm (R43; log 13). -/
  missIn : Nat
  misses : Nat
  /-- The last 10 advances, oldest first, µm. -/
  history : List Nat
  retrace : Nat
  /-- Lateral offset e, mm. -/
  lateral : Int
  /-- Distance since marker s, µm. -/
  since : Nat
  armed : Bool
  atBerth : Bool
  lap : Half
  /-- The berth distance handed on with the last position change (R45, R46; log 12). -/
  fb : Option Nat
  odoL : Half
  odoR : Half
  deriving DecidableEq, Repr

/-! ## Motion Controller (Chapter 4) -/

/-- Table 4.6. -/
structure DemandRecord where
  speed : Nat
  curvature : Int
  brake : Bool
  deriving DecidableEq, Repr

/-- Table 4.1, the last record sent on the drive port (R75), and the state entries not yet handed on (R78; log 6). -/
structure Motion where
  state : MotionState
  dPrev : Nat
  immediate : Bool
  atStation : Bool
  stopVoice : Bool
  resumeVoice : Bool
  record : Option DemandRecord
  notices : List MotionState
  deriving DecidableEq, Repr

/-! ## Zone Claim Unit (Chapter 5) -/

/-- Table 5.2. `since` is the intent start time. -/
structure Claim where
  zone : Nat
  stage : Stage
  since : Option Nat
  mark : Bool
  deriving DecidableEq, Repr

/-! ## Restraint Monitor (Chapter 6) -/

/-- Table 6.2, the drive output, and the samples of the open window (R99; the first sample is the highest bit). -/
structure Line where
  judgement : Option LineJudgement
  mismatches : Nat
  capture : Option (Half × Half)
  drive : Bool
  driveWord : Half
  returnWord : Half
  deriving DecidableEq, Repr

/-- Table 6.3. -/
structure Seat where
  state : SeatState
  code : Option Nat
  verifyRun : Nat
  disagreeRun : Nat
  mismatchRun : Nat
  lowRun : Nat
  reference : Option Nat
  creep : Bool
  releaseCheck : Bool
  solenoid : Bool
  pulse : Option Nat
  deriving DecidableEq, Repr

/-- The monitor: its generators and sample count (R99), 12 lines, 6 seats. -/
structure Restraint where
  running : Bool
  n : Nat
  /-- Samples taken in the open window. -/
  fill : Nat
  lines : List Line
  seats : List Seat
  deriving DecidableEq, Repr

/-! ## Condition Unit (Chapter 7) -/

/-- Table 7.1. -/
structure Condition where
  latched : Bool
  level : Nat
  announceFirst : Bool
  count : Nat
  remaining : Nat
  escalated : Bool
  clip : Option Nat
  announcement : Announcement
  deriving DecidableEq, Repr

/-- Table 7.4. -/
structure FirstFault where
  condition : Nat
  level : Nat
  motion : MotionState
  conf : Confidence
  segment : Nat
  offset : Nat
  zone : Nat
  lap : Nat
  speed : Nat
  time : Nat
  deriving DecidableEq, Repr

/-- Table 7.5 (the trip level is the level of the TALLY condition, R122) and the marks of R135. -/
structure Counter where
  event : TallyEvent
  phase : Phase
  zone : ZoneQualifier
  limit : Nat
  preset : Nat
  threshold : Nat
  freeze : Bool
  chained : Bool
  value : Nat
  tripped : Bool
  armed : Bool
  deriving DecidableEq, Repr

/-- A running duration event (R137): its start, and for each counter whether its threshold has been passed. -/
structure Duration where
  key : DurationKey
  start : Nat
  passed : List Bool
  deriving DecidableEq, Repr

/-- The Condition Unit. `records` holds conditions 1–25 in order; `handed` is the level last handed on (R128). -/
structure ConditionUnit where
  records : List Condition
  firstFault : Option FirstFault
  counters : List Counter
  frozen : Bool
  durations : List Duration
  handed : Nat
  deriving DecidableEq, Repr

/-! ## Cue Sequencer (Chapter 8) -/

/-- The binding of a voice to a scene clock (Tables 8.3 and 9.2). -/
structure SceneLock where
  scene : Nat
  anchor : Nat
  deriving DecidableEq, Repr

/-- Table 8.2. `invalid` is a trigger kind outside the table (R145). -/
inductive CueTrigger where
  | marker (code : Nat)
  | position (segment offset : Nat)
  | zoneEnter (zone : Nat)
  | zoneLeave (zone : Nat)
  | sceneTime (scene time : Nat)
  | cueDone (cue : Nat)
  | motion (code : Nat)
  | invalid
  deriving DecidableEq, Repr

/-- Table 8.3. `invalid` is an action kind outside the table (R145). -/
inductive CueAction where
  | linkCue (scene cue : Nat)
  | soundStart (clip priority : Nat) (gains : List Nat) (lock : Option SceneLock)
  | soundStop (cue : Nat)
  | invalid
  deriving DecidableEq, Repr

/-- Table 8.1. -/
structure CueEntry where
  trigger : CueTrigger
  delay : Nat
  gate : Nat
  every : Bool
  showEffect : Bool
  action : CueAction
  enabled : Bool
  fired : Bool
  watching : Bool
  watchExpiry : Option Nat
  deriving DecidableEq, Repr

/-- An entry of the pending list (R147). -/
structure WaitingCue where
  cue : Nat
  due : Nat
  deriving DecidableEq, Repr

/-- The Cue Sequencer: the cue table by cue id, and the pending list. -/
structure CueSequencer where
  table : List CueEntry
  waiting : List WaitingCue
  deriving DecidableEq, Repr

/-! ## Sound Engine (Chapter 9) -/

/-- A present clip record (Table 9.1). -/
structure Clip where
  address : Nat
  length : Nat
  loops : Bool
  deriving DecidableEq, Repr

/-- Who asked for a voice (Table 9.2). -/
inductive VoiceTag where
  | cue (id : Nat)
  | condition (id : Nat)
  | stopAnnouncement
  | resumeAnnouncement
  deriving DecidableEq, Repr

/-- A block in a buffer: its first sample's place (unwrapped, log 15) and its samples. -/
structure Block where
  start : Nat
  samples : List Half
  deriving DecidableEq, Repr

/-- The jump of a voice (R175): PENDING with its target and the frames output since the check, or CROSSFADE with
the new stream's place, its block and the frames left. -/
inductive Jump where
  | none
  | pending (target frames : Nat)
  | crossfade (cursor : Nat) (block : Block) (left : Nat)
  deriving DecidableEq, Repr

/-- Table 9.2. `cursor` and `fetch` are the position and the fetch point, unwrapped for a looping clip (log 15). -/
structure Voice where
  state : VoiceState
  clip : Nat
  cursor : Nat
  gains : List Nat
  priority : Nat
  lock : Option SceneLock
  tag : VoiceTag
  rank : Nat
  bufs : List Block
  fetch : Nat
  fadeStep : Nat
  waitExpiry : Option Nat
  lastCheck : Option Nat
  jump : Jump
  /-- The voice is within a run of frames without a sample (R169). -/
  underrun : Bool
  deriving DecidableEq, Repr

/-- An IDLE voice: R162, it "holds no meaningful value in any field but its state". -/
def Voice.idle : Voice where
  state := .idle
  clip := 0
  cursor := 0
  gains := [0, 0, 0, 0]
  priority := 0
  lock := none
  tag := .cue 0
  rank := 0
  bufs := []
  fetch := 0
  fadeStep := 0
  waitExpiry := none
  lastCheck := none
  jump := .none
  underrun := false

/-- The read in progress on the flash port (R167): its voice, its block, its timeout. -/
structure Read where
  voice : Nat
  start : Nat
  size : Nat
  timeout : Nat
  deriving DecidableEq, Repr

/-- The Sound Engine. `out` is the output frame's four samples (R177). -/
structure SoundEngine where
  clips : List (Option Clip)
  voices : List Voice
  read : Option Read
  out : List Int
  deriving DecidableEq, Repr

/-! ## Show Flash Loader (Chapter 10) -/

/-- The values read from a configuration block that passed its check word, not yet in force (R181). -/
structure Staged where
  address : Nat
  settings : Settings
  block : List Byte
  deriving DecidableEq, Repr

/-- The loader (section 10.1). -/
structure Loader where
  progress : LoadProgress
  listenExpiry : Option Nat
  staged : Option Staged
  deriving DecidableEq, Repr

/-! ## The whole part -/

/-- The state of the part and the queue of waiting commands. -/
structure State where
  pending : List Instr
  /-- Local time, ms since the end of the last full reset (log 2). -/
  now : Nat
  /-- Free values drawn so far (log 4). -/
  draws : Nat
  resetHeld : Bool
  driveFaultIn : Bool
  localStopIn : Bool
  settings : Settings
  link : Link
  /-- Records of addresses 1 to 31 in order; `none` is EMPTY. -/
  peers : List (Option Peer)
  route : Option Route
  tracker : Tracker
  motion : Motion
  claims : List Claim
  restraint : Restraint
  cond : ConditionUnit
  cues : CueSequencer
  sound : SoundEngine
  loader : Loader
  deriving DecidableEq, Repr

/-- Why the part stops with a fault: never. The spec gives every command an effect in every state, so no meaning
answers with a fault, and this type has no constructor (safe). -/
inductive Fault where
  deriving DecidableEq, Repr

/-- Why a command has no meaning. -/
inductive Refusal where
  /-- An arm of `exec` whose meaning is not written yet answers with its row's mnemonic (safe). None is left. -/
  | notModelled (mnemonic : String)
  deriving DecidableEq, Repr

/-! ## Reset -/

/-- R17. -/
def Link.reset : Link where
  access := .idle
  k := 3
  slots := 0
  carrier := false
  quiet := false
  frameLost := false
  beaconTimer := none
  beaconDue := none
  seq := 0
  queue := []
  onAir := none
  ownAddress := 0
  ownHeard := none
  lastRefusal := none
  silence := none
  silent := false

/-- R51; the wheel counts by log 10. -/
def Tracker.reset : Tracker where
  pos := 0
  conf := .unfixed
  expected := none
  missIn := 0
  misses := 0
  history := List.replicate 10 0
  retrace := 0
  lateral := 0
  since := Config.maxSince
  armed := false
  atBerth := false
  lap := 0
  fb := none
  odoL := 0
  odoR := 0

/-- R79. -/
def Motion.reset : Motion where
  state := .start
  dPrev := 0
  immediate := false
  atStation := false
  stopVoice := false
  resumeVoice := false
  record := none
  notices := []

/-- R119: a line. -/
def Line.reset : Line where
  judgement := none
  mismatches := 0
  capture := none
  drive := false
  driveWord := 0
  returnWord := 0

/-- R119: a seat. -/
def Seat.reset : Seat where
  state := .opened
  code := none
  verifyRun := 0
  disagreeRun := 0
  mismatchRun := 0
  lowRun := 0
  reference := none
  creep := false
  releaseCheck := false
  solenoid := false
  pulse := none

/-- R119: the monitor. -/
def Restraint.reset : Restraint where
  running := false
  n := 0
  fill := 0
  lines := List.replicate 12 Line.reset
  seats := List.replicate 6 Seat.reset

/-- Table 7.2: the default levels of conditions 1–25; a TALLY condition's is 1. -/
def defaultLevels : List Nat :=
  [3, 7, 6, 4, 6, 4, 6, 7, 7, 7, 6, 6, 5, 6, 6, 1, 1, 2, 6, 1, 1, 1, 1, 4, 3]

/-- R122: a record with its default level, DIRECT and no clip. -/
def Condition.default (level : Nat) : Condition where
  latched := false
  level := level
  announceFirst := false
  count := 0
  remaining := 0
  escalated := false
  clip := none
  announcement := .none

/-- Table 7.5: the default counter (R142). -/
def Counter.default : Counter where
  event := .none
  phase := .any
  zone := .any
  limit := 65535
  preset := 0
  threshold := 0
  freeze := false
  chained := false
  value := 0
  tripped := false
  armed := false

/-- R142. -/
def ConditionUnit.reset : ConditionUnit where
  records := defaultLevels.map Condition.default
  firstFault := none
  counters := List.replicate 4 Counter.default
  frozen := false
  durations := []
  handed := 0

/-- R179. -/
def SoundEngine.reset : SoundEngine where
  clips := List.replicate 128 none
  voices := List.replicate 8 Voice.idle
  read := none
  out := [0, 0, 0, 0]

/-- The part right after a full reset has ended (R180; log 10, log 11): every block at its full-reset values, the
load progress LOADING, no command waiting. -/
def State.reset : State where
  pending := []
  now := 0
  draws := 0
  resetHeld := false
  driveFaultIn := false
  localStopIn := false
  settings := Settings.default
  link := Link.reset
  peers := List.replicate 31 none
  route := none
  tracker := Tracker.reset
  motion := Motion.reset
  claims := []
  restraint := Restraint.reset
  cond := ConditionUnit.reset
  cues := { table := [], waiting := [] }
  sound := SoundEngine.reset
  loader := { progress := .loading, listenExpiry := none, staged := none }

end Sys2Proof.Machine
end

