-- ==== Sys2Proof/Machine/Operands.lean ====
section
/-! DEFINITION. The operand forms: bytes and multi-byte fields, the check word (R10, R187), the codes of Table 11.4,
frames (section 11.1), beacon bodies (Table 11.3), and small arithmetic of section 0.8.2. -/
namespace Sys2Proof.Machine

/-! ## Bytes -/

/-- One byte of a value below 256. -/
def byteOf (v : Nat) : Byte := BitVec.ofNat 8 v

/-- R187: a two-byte field, most significant byte first. -/
def bytes2 (v : Nat) : List Byte := [byteOf (v / 256), byteOf v]

/-- R187: a four-byte field, most significant byte first. -/
def bytes4 (v : Nat) : List Byte := [byteOf (v / 16777216), byteOf (v / 65536), byteOf (v / 256), byteOf v]

/-- The byte at a place of a record; 0 beyond its end. -/
def byteAt (bs : List Byte) (i : Nat) : Nat := (bs.getD i 0).toNat

/-- A two-byte field at a place, most significant byte first (R187, R189). -/
def half2 (bs : List Byte) (i : Nat) : Nat := byteAt bs i * 256 + byteAt bs (i + 1)

/-- A three-byte field. -/
def field3 (bs : List Byte) (i : Nat) : Nat := half2 bs i * 256 + byteAt bs (i + 2)

/-- A four-byte field. -/
def field4 (bs : List Byte) (i : Nat) : Nat := half2 bs i * 65536 + half2 bs (i + 2)

/-! ## Check word -/

/-- One bit of the CRC-16 of R10: polynomial x^16 + x^12 + x^5 + 1, the message bit meeting the highest bit. -/
def crcBit (crc : Half) (bit : Bool) : Half :=
  if crc.msb ^^ bit then (crc <<< 1) ^^^ 0x1021#16 else crc <<< 1

/-- One byte, most significant bit first (R187). -/
def crcByte (crc : Half) (b : Byte) : Half :=
  [7, 6, 5, 4, 3, 2, 1, 0].foldl (fun c i => crcBit c (b.getLsbD i)) crc

/-- The CRC-16 of R10 over a run of bytes: initial value all ones, no final inversion (R187). -/
def crc16 (bs : List Byte) : Half := bs.foldl crcByte 0xFFFF#16

/-- A frame from its header and body: the check word is added, high byte first (Table 11.1). -/
def frameOf (kind source target : Nat) (body : List Byte) : List Byte :=
  let head := [byteOf kind, byteOf source, byteOf target] ++ body
  head ++ bytes2 (crc16 head).toNat

/-! ## Codes (Tables 11.2 and 11.4) -/

/-- Table 11.4: motion state. -/
def MotionState.code : MotionState → Nat
  | .start => 0 | .fault => 1 | .parked => 2 | .ready => 3 | .running => 4 | .holding => 5
  | .stopping => 6 | .stopped => 7 | .estop => 8

/-- Table 11.4: confidence. -/
def Confidence.code : Confidence → Nat
  | .unfixed => 0 | .good => 1 | .reckoning => 2 | .lost => 3

/-- Table 11.4: restraint summary. -/
def Summary.code : Summary → Nat
  | .notAllVerified => 0 | .allVerified => 1 | .fault => 2

/-- Table 11.4: station kind. -/
def StationKind.code : StationKind → Nat
  | .vehicle => 0 | .scene => 1 | .load => 2 | .operator => 3

/-- Table 11.4: the station kind of a code 0–3. -/
def stationKindOf : Nat → Option StationKind
  | 0 => some .vehicle | 1 => some .scene | 2 => some .load | 3 => some .operator | _ => none

/-- Table 11.4: refusal reason 1–10, in the order of Table 1.6. -/
def RefusalReason.code : RefusalReason → Nat
  | .unknownSource => 1 | .wrongSourceKind => 2 | .wrongState => 3 | .moving => 4 | .notAtStation => 5
  | .notVerified => 6 | .levelTooHigh => 7 | .retired => 8 | .positionNotGood => 9 | .queueFull => 10

/-- Table 11.2: the frame kind of a command. -/
def CommandKind.code : CommandKind → Nat
  | .stop => 2 | .resume => 3 | .dispatch => 4 | .unlock => 5 | .clear => 6 | .retire => 7 | .forget => 8
  | .query => 9 | .restart => 11

/-- Table 11.4: seat state. -/
def SeatState.code : SeatState → Nat
  | .unused => 0 | .opened => 1 | .locked => 2 | .verified => 3 | .unlocking => 4 | .fault => 5

/-- Table 11.4: line judgement. -/
def judgementCode : Option LineJudgement → Nat
  | none => 0 | some .closed => 1 | some .opened => 2 | some .mismatch => 3

/-- Table 11.4: peer state of a filled record. -/
def PeerState.code : PeerState → Nat
  | .fresh => 1 | .stale => 2 | .lost => 3

/-- Table 7.6: the event a select names (bits 0–3, R189). -/
def tallyEventOf (n : Nat) : TallyEvent :=
  [.none, .markerMiss, .markerUnknown, .frameBad, .framesLost, .holdLong, .barCreep, .lineMismatch, .steerLimit,
    .cueDropped, .cueLate, .voiceSteal, .soundUnderrun, .zoneYield, .backoffLong, .speedClamp].getD n .none

/-- A Bool as a bit of a byte. -/
def bitOf (b : Bool) (weight : Nat) : Nat := if b then weight else 0

/-! ## Beacon bodies as stored (Table 11.3, R188) -/

/-- The route id of a VEHICLE body. -/
def bodyRouteId (body : List Byte) : Nat := byteAt body 3
/-- The segment index of a VEHICLE body. -/
def bodySegment (body : List Byte) : Nat := byteAt body 4
/-- The offset of a VEHICLE body. -/
def bodyOffset (body : List Byte) : Nat := half2 body 5

/-- The claims of a VEHICLE body: zone, and whether the stage counts as HELD (R188: any stage other than 0). -/
def bodyClaims (body : List Byte) : List (Nat × Bool) :=
  (List.range (byteAt body 17)).map fun i => (byteAt body (18 + 2 * i), byteAt body (19 + 2 * i) != 0)

/-- The governed zone of a SCENE body. -/
def sceneZone (body : List Byte) : Nat := byteAt body 2
/-- The scene clock of a SCENE body. -/
def sceneClock (body : List Byte) : Nat := field3 body 4

/-! ## Received frames (R10, R188) -/

/-- Table 11.5: the body length of a REPORT by its kind and status; none for a pair R188 fails. -/
def reportLength (kind status : Nat) : Option Nat :=
  if status = 1 then some 3
  else if status = 0 then [54, 20, 16, 13, 12, 32][kind]?
  else none

/-- Table 11.2: the body length a received frame of this kind must have, judged by R188; none when it has none. -/
def bodyLength (kind : Nat) (body : List Byte) : Option Nat :=
  match kind with
  | 0 =>
    match body[0]? with
    | none => none
    | some kindByte =>
      match stationKindOf kindByte.toNat with
      | some .vehicle => if 18 ≤ body.length ∧ byteAt body 17 ≤ 2 then some (18 + 2 * byteAt body 17) else none
      | some .scene => some 7
      | some .load => some 3
      | some .operator => some 2
      | none => none
  | 1 => some 2
  | 2 => some 2
  | 3 => some 0
  | 4 => some 0
  | 5 => some 1
  | 6 => some 5
  | 7 => some 1
  | 8 => some 1
  | 9 => some 2
  | 10 => if 3 ≤ body.length then reportLength (byteAt body 0) (byteAt body 2) else none
  | 11 => some 0
  | _ => none

/-- The parts of a received frame. -/
structure Frame where
  kind : Nat
  source : Nat
  target : Nat
  body : List Byte
  deriving DecidableEq, Repr

/-- The four checks of R10: a complete header and check word; the kind and body length; the CRC-16; the source. -/
def checkFrame (bs : List Byte) : Option Frame :=
  if bs.length < 5 then none
  else
    let body := (bs.drop 3).take (bs.length - 5)
    let kind := byteAt bs 0
    let source := byteAt bs 1
    if bodyLength kind body = some body.length
        ∧ half2 bs (bs.length - 2) = (crc16 (bs.take (bs.length - 2))).toNat
        ∧ 1 ≤ source ∧ source ≤ 31 then
      some { kind := kind, source := source, target := byteAt bs 2, body := body }
    else none

/-! ## Arithmetic (section 0.8.2) -/

/-- Digit-by-digit search for the root: the bits below `bits` are still to be decided. -/
def isqrtGo (n : Nat) : Nat → Nat → Nat
  | 0, acc => acc
  | bits + 1, acc => if (acc + 2 ^ bits) * (acc + 2 ^ bits) ≤ n then isqrtGo n bits (acc + 2 ^ bits) else isqrtGo n bits acc

/-- "sqrt within floor is the exact integer square root". -/
def isqrt (n : Nat) : Nat := isqrtGo n (n.log2 / 2 + 1) 0

/-- A value clamped to a range. -/
def clampNat (lo hi v : Nat) : Nat := if v < lo then lo else if hi < v then hi else v

/-- An integer clamped to a range. -/
def clampInt (lo hi v : Int) : Int := if v < lo then lo else if hi < v then hi else v

/-- sat16(x). -/
def sat16 (x : Int) : Int := clampInt (-32768) 32767 x

/-- The distance ahead from x to y on a loop of length m: (y − x) mod m (R32). -/
def ahead (m x y : Nat) : Nat := (y + (m - x % m)) % m

/-- Whether a forward move of f from p on a loop of length m carries over the place x: the span runs from after p up
to and including p + f (R37). -/
def spanHas (m p f x : Nat) : Bool := (if ahead m p x = 0 then m else ahead m p x) ≤ f

/-- An element joins an ordered list behind those of equal key. -/
def insertByKey {α : Type} (key : α → Nat) (x : α) : List α → List α
  | [] => [x]
  | y :: ys => if key x < key y then x :: y :: ys else y :: insertByKey key x ys

/-- A list put in order of rising key; equal keys keep their order. -/
def sortByKey {α : Type} (key : α → Nat) (xs : List α) : List α :=
  xs.foldl (fun acc x => insertByKey key x acc) []

/-- A list with the element at one place replaced by its image. -/
def updateAt {α : Type} (i : Nat) (f : α → α) (xs : List α) : List α := xs.modify i f

end Sys2Proof.Machine
end

