-- ==== Sys2Proof/Machine/ConfigBlock.lean ====
section
/-! DEFINITION. The configuration block (Table 11.6) as R181 and R189 read it: its check word, its values with their
defaults and clamps (Table 10.2), and the condition and counter values (R122, R135). -/
namespace Sys2Proof.Machine

/-! ## Values and clamps -/

/-- A value taken from the flash, and whether it was changed (an occurrence of CONFIG_CLAMPED). -/
structure Taken (α : Type) where
  value : α
  clamped : Bool
  deriving DecidableEq, Repr

/-- R189: a 16-bit value, none when not given. -/
def given16 (block : List Byte) (o : Nat) : Option Nat := if half2 block o = 0xFFFF then none else some (half2 block o)

/-- R189: a byte value, none when not given. -/
def given8 (block : List Byte) (o : Nat) : Option Nat := if byteAt block o = 255 then none else some (byteAt block o)

/-- R181: a value clamped to the nearer end of its range. -/
def clampTaken (lo hi v : Nat) : Taken Nat := { value := clampNat lo hi v, clamped := clampNat lo hi v != v }

/-- R181: a value with its default and its range. -/
def ranged (lo hi dflt : Nat) (v : Option Nat) : Taken Nat :=
  match v with
  | none => { value := dflt, clamped := false }
  | some x => clampTaken lo hi x

/-- R181: an announcement clip, 0–127 or none. -/
def clipValue (v : Option Nat) : Taken (Option Nat) :=
  match v with
  | none => { value := none, clamped := false }
  | some x => { value := some (clampTaken 0 127 x).value, clamped := (clampTaken 0 127 x).clamped }

/-- R181: the station address; 0, given or by default, is not clamped. -/
def addressValue (v : Option Nat) : Taken Nat := ranged 0 31 0 v

/-- R181: the resync interval: 0, or 200 to 5000 ms; 1 to 199 is taken as 200. -/
def resyncValue (v : Option Nat) : Taken Nat :=
  match v with
  | none => { value := 1000, clamped := false }
  | some 0 => { value := 0, clamped := false }
  | some x => clampTaken 200 5000 x

/-- R181, Table 6.1: the line test mode. -/
def modeValue (v : Option Nat) : Taken LineMode :=
  match v with
  | none => { value := .lfsr, clamped := false }
  | some 0 => { value := .lfsr, clamped := false }
  | some 1 => { value := .fixed, clamped := false }
  | some 2 => { value := .off, clamped := false }
  | some _ => { value := .lfsr, clamped := true }

/-- R181, R189: the fixed pattern, always given. -/
def patternValue (v : Nat) : Taken Half :=
  if v = 0 then { value := 1#16, clamped := true } else { value := BitVec.ofNat 16 v, clamped := false }

/-! ## The block -/

/-- R181: the block's check word. -/
def blockPasses (block : List Byte) : Bool :=
  block.length = 256 && decide (half2 block 254 = (crc16 (block.take 254)).toNat)

/-- The n-th of the 16-bit values from 0x04 (Table 11.6). -/
def firstRun (block : List Byte) (n : Nat) : Option Nat := given16 block (4 + 2 * n)

/-- The n-th of the 16-bit values from 0x26 (Table 11.6). -/
def secondRun (block : List Byte) (n : Nat) : Option Nat := given16 block (38 + 2 * n)

/-- R181: the plain values of Table 10.2 from 0x02 and the run from 0x04, over the defaults. -/
def takeFirst (block : List Byte) : Taken Settings :=
  let flash := ranged 1 1024 256 (given16 block 2)
  let period := ranged 20 100 50 (firstRun block 0)
  let silence := ranged 200 5000 500 (firstRun block 1)
  let lateness := ranged 20 500 100 (firstRun block 2)
  let stale := ranged 60 1000 150 (firstRun block 3)
  let lost := ranged 300 5000 1000 (firstRun block 4)
  let g := ranged 100 10000 1000 (firstRun block 5)
  let body := ranged 1000 6000 3000 (firstRun block 6)
  let tolerance := ranged 5 100 20 (firstRun block 7)
  let margin := ranged 200 5000 1000 (firstRun block 8)
  let decel := ranged 200 2000 800 (firstRun block 9)
  let accel := ranged 100 1500 500 (firstRun block 10)
  let slow := ranged 100 1000 300 (firstRun block 11)
  let gain := ranged 0 255 32 (firstRun block 12)
  let fade := ranged 500 5000 2000 (firstRun block 13)
  let kmax := ranged 100 2000 1500 (firstRun block 14)
  let stop := clipValue (firstRun block 15)
  let resume := clipValue (firstRun block 16)
  { value :=
      { Settings.default with
        flashSize := 65536 * flash.value, beaconPeriod := period.value, silenceTime := silence.value
        cueLateness := lateness.value, staleTime := stale.value, lostTime := lost.value, odoScale := g.value
        bodyLength := body.value, berthTolerance := tolerance.value, margin := margin.value, decel := decel.value
        accel := accel.value, slow := slow.value, lateralGain := gain.value, fadeDistance := fade.value
        curvatureLimit := kmax.value, stopClip := stop.value, resumeClip := resume.value }
    clamped := flash.clamped || period.clamped || silence.clamped || lateness.clamped || stale.clamped || lost.clamped
      || g.clamped || body.clamped || tolerance.clamped || margin.clamped || decel.clamped || accel.clamped
      || slow.clamped || gain.clamped || fade.clamped || kmax.clamped || stop.clamped || resume.clamped }

/-- R181: the plain values of Table 10.2 of the run from 0x26. -/
def takeSecond (block : List Byte) (c : Settings) : Taken Settings :=
  let distance := ranged 2000 20000 8000 (secondRun block 0)
  let settleT := ranged 50 500 120 (secondRun block 1)
  let seats := ranged 1 6 6 (secondRun block 2)
  let mode := modeValue (secondRun block 3)
  let pattern := patternValue (half2 block 46)
  let verify := ranged 300 3000 500 (secondRun block 5)
  let pulse := ranged 200 2000 800 (secondRun block 6)
  let lock := ranged 100 250 160 (secondRun block 7)
  let creep := ranged 1 31 8 (secondRun block 8)
  let resync := resyncValue (secondRun block 9)
  { value :=
      { c with
        claimDistance := distance.value, settleTime := settleT.value, seatCount := seats.value, testMode := mode.value
        fixedPattern := pattern.value, verifyTime := verify.value, unlockPulse := pulse.value
        lockMinimum := lock.value, creepLimit := creep.value, resync := resync.value }
    clamped := distance.clamped || settleT.clamped || seats.clamped || mode.clamped || pattern.clamped || verify.clamped
      || pulse.clamped || lock.clamped || creep.clamped || resync.clamped }

/-- R181: what a block that passes its check word stages, and whether a value was clamped. -/
def takeBlock (block : List Byte) : Taken Staged :=
  let address := addressValue (given16 block 0)
  let first := takeFirst block
  let second := takeSecond block first.value
  { value := { address := address.value, settings := second.value, block := block }
    clamped := address.clamped || first.clamped || second.clamped }

/-! ## Conditions (R122) -/

/-- Table 7.2: the floors of conditions 1–25. -/
def levelFloors : List Nat := [3, 7, 6, 2, 6, 2, 6, 7, 7, 7, 6, 6, 5, 6, 6, 1, 1, 1, 6, 1, 1, 1, 1, 2, 3]

/-- Table 7.2: the fixed conditions. -/
def fixedCondition (id : Nat) : Bool := [2, 8, 9, 10, 11, 12].contains id

/-- Table 11.6: the place of condition `id`'s three bytes. -/
def conditionOffset (id : Nat) : Nat := 64 + 3 * (id - 1)

/-- Table 11.6: the place of counter k's ten bytes. -/
def counterOffset (k : Nat) : Nat := 144 + 10 * (k - 1)

/-- R122, R189: the level byte of a condition: its own, or its counter's trip level for 20–23. -/
def levelByte (block : List Byte) (id : Nat) : Option Nat :=
  if 20 ≤ id ∧ id ≤ 23 then given8 block (counterOffset (id - 19) + 5) else given8 block (conditionOffset id)

/-- The configured values of one condition. -/
structure ConditionConfig where
  level : Nat
  announceFirst : Bool
  count : Nat
  clip : Option Nat
  deriving DecidableEq, Repr

/-- R122: the response and count of a condition at its level. -/
def responseValue (level : Nat) (v : Option Nat) : Taken (Bool × Nat) :=
  match v with
  | none => { value := (false, 0), clamped := false }
  | some b =>
    if b < 128 then { value := (false, 0), clamped := false }
    else if 6 ≤ level then { value := (false, 0), clamped := true }
    else { value := (true, (clampTaken 1 7 (b - 128)).value), clamped := (clampTaken 1 7 (b - 128)).clamped }

/-- R122: the clip of a condition: none above 127 and where the clip table does not hold it. -/
def conditionClip (clips : List (Option Clip)) (v : Option Nat) : Taken (Option Nat) :=
  match v with
  | none => { value := none, clamped := false }
  | some c =>
    if (clips[c]?).join.isSome then { value := some c, clamped := false } else { value := none, clamped := true }

/-- R122: the values of a condition that is not fixed. A DIRECT condition keeps clip none (R125). -/
def takeCondition (block : List Byte) (clips : List (Option Clip)) (id : Nat) : Taken ConditionConfig :=
  let level := ranged (levelFloors.getD (id - 1) 1) 7 (defaultLevels.getD (id - 1) 1) (levelByte block id)
  let response := responseValue level.value (given8 block (conditionOffset id + 1))
  let clip := conditionClip clips (given8 block (conditionOffset id + 2))
  { value :=
      { level := level.value, announceFirst := response.value.1, count := response.value.2
        clip := if response.value.1 then clip.value else none }
    clamped := level.clamped || response.clamped || clip.clamped }

/-- R143: a condition takes its new values; one whose response or count changes starts its count anew. -/
def Condition.configure (q : ConditionConfig) (c : Condition) : Condition :=
  let same := c.announceFirst = q.announceFirst && c.count = q.count
  { c with
    level := q.level, announceFirst := q.announceFirst, count := q.count, clip := q.clip
    remaining := if same then c.remaining else q.count
    escalated := c.escalated && same }

/-! ## Counters (R135, Table 7.5) -/

/-- Table 11.6: the phase qualifier; other codes are taken as ANY. -/
def phaseValue (v : Option Nat) : Taken Phase :=
  match v with
  | none => { value := .any, clamped := false }
  | some 0 => { value := .any, clamped := false }
  | some 1 => { value := .moving, clamped := false }
  | some 2 => { value := .parked, clamped := false }
  | some 3 => { value := .stopped, clamped := false }
  | some _ => { value := .any, clamped := true }

/-- Table 11.6: the zone qualifier; other codes are taken as ANY. -/
def zoneValue (v : Option Nat) : Taken ZoneQualifier :=
  match v with
  | none => { value := .any, clamped := false }
  | some 0 => { value := .any, clamped := false }
  | some 1 => { value := .marked, clamped := false }
  | some 2 => { value := .unmarked, clamped := false }
  | some _ => { value := .any, clamped := true }

/-- Table 7.5: limit 0 is taken as 1. -/
def limitValue (v : Option Nat) : Taken Nat := ranged 1 65535 65535 v

/-- Table 7.5: a preset at or above the limit is taken as limit − 1. -/
def presetValue (limit : Nat) (v : Option Nat) : Taken Nat := clampTaken 0 (limit - 1) (v.getD 0)

/-- R135: the configuration of counter k, as a counter with no value yet. Chained set on counter 1 is ignored (log 25). -/
def takeCounter (block : List Byte) (k : Nat) : Taken Counter :=
  let o := counterOffset k
  let phase := phaseValue (given8 block (o + 1))
  let zone := zoneValue (given8 block (o + 2))
  let flags := (given8 block (o + 4)).getD 0
  let limit := limitValue (given16 block (o + 8))
  let preset := presetValue limit.value (given16 block (o + 6))
  let chained := flags / 2 % 2 = 1
  { value :=
      { event := tallyEventOf ((given8 block o).getD 0 % 16), phase := phase.value, zone := zone.value
        limit := limit.value, preset := preset.value, threshold := (given8 block (o + 3)).getD 0 % 64
        freeze := flags % 2 = 1, chained := chained && k != 1, value := 0, tripped := false, armed := false }
    clamped := phase.clamped || zone.clamped || limit.clamped || preset.clamped || (chained && k = 1) }

/-- R138: counter 1 does not trip when it selects event 0, by its configuration no more than by an arrival (log 35). -/
def neverTrips (k : Nat) (q : Counter) : Bool := k = 1 && q.event = .none

/-- R143: counter k takes its new configuration: its value is brought between preset and limit, and its tripped mark
goes when the value is below the limit. -/
def Counter.configure (k : Nat) (q c : Counter) : Counter :=
  let v := min q.limit (max q.preset c.value)
  { q with value := v, tripped := q.limit ≤ v && (c.tripped || !neverTrips k q), armed := c.armed }

/-- R143: whether counter k trips by its new configuration: its value equals its limit and it was not tripped. -/
def configureTrips (k : Nat) (q c : Counter) : Bool := (Counter.configure k q c).tripped && !c.tripped

end Sys2Proof.Machine
end

