-- ==== Sys2Proof/Machine/Route.lean ====
section
/-! DEFINITION. The Route Store's answers to path questions (R32 to R35). Positions are in mm. -/
namespace Sys2Proof.Machine

/-- The route length L (R32). -/
def Route.len (r : Route) : Nat := (r.segments.map Segment.length).sum

/-- The route position of the start of segment i (R32). -/
def Route.startOf (r : Route) (i : Nat) : Nat := ((r.segments.take i).map Segment.length).sum

/-- The segment that contains x and the offset in it (R32), from segment i on. -/
def locate : List Segment → Nat → Nat → Option (Nat × Nat)
  | [], _, _ => none
  | g :: gs, i, x => if x < g.length then some (i, x) else locate gs (i + 1) (x - g.length)

/-- Table 3.2: segment and offset at route position x. -/
def Route.segmentAt (r : Route) (x : Nat) : Option (Nat × Nat) := locate r.segments 0 x

/-- Table 3.2: the zone at route position x, 255 for none. -/
def Route.zoneAt (r : Route) (x : Nat) : Nat :=
  match r.segmentAt x with
  | none => 255
  | some (i, _) => (r.segments[i]?.map Segment.zone).getD 255

/-- The segment before segment i in loop order. -/
def Route.before (r : Route) (i : Nat) : Nat := if i = 0 then r.segments.length - 1 else i - 1

/-- The zone of segment i. -/
def Route.zoneOf (r : Route) (i : Nat) : Nat := (r.segments[i]?.map Segment.zone).getD 255

/-- The segments at which a run of zone z begins: they are of zone z and the segment before them is not. -/
def Route.runStarts (r : Route) (z : Nat) : List Nat :=
  (List.range r.segments.length).filter fun i => r.zoneOf i = z && r.zoneOf (r.before i) != z

/-- R33: the zone's entry, the start of the first segment of its run. -/
def Route.entry (r : Route) (z : Nat) : Option Nat := (r.runStarts z).head?.map r.startOf

/-- R33: the zone's length. -/
def Route.zoneLength (r : Route) (z : Nat) : Nat :=
  ((r.segments.filter fun g => g.zone = z).map Segment.length).sum

/-- R33: the zone's end, the route position just past its last millimetre. -/
def Route.zoneEnd (r : Route) (z : Nat) : Option Nat :=
  (r.entry z).map fun e => (e + r.zoneLength z) % r.len

/-- The zone's record, where the image defines it. -/
def Route.zoneRecord (r : Route) (z : Nat) : Option ZoneRecord := r.zones.find? fun q => q.id = z

/-- R33: the zone's capacity. -/
def Route.capacity (r : Route) (z : Nat) : Nat := ((r.zoneRecord z).map ZoneRecord.capacity).getD 0

/-- R33: the zone's marked flag. -/
def Route.marked (r : Route) (z : Nat) : Bool := ((r.zoneRecord z).map ZoneRecord.marked).getD false

/-- Of two candidates (zone, distance), the nearer; the first of equals. -/
def nearer (a : Option (Nat × Nat)) (b : Nat × Nat) : Option (Nat × Nat) :=
  match a with
  | none => some b
  | some c => if b.2 < c.2 then some b else some c

/-- Table 3.2: the next zone entry ahead of x, as zone and distance: of the segment starts 1 mm or more ahead, the
nearest whose zone is not 255 and differs from the zone at x. -/
def Route.nextEntry (r : Route) (x : Nat) : Option (Nat × Nat) :=
  let here := r.zoneAt x
  ((List.range r.segments.length).filterMap fun i =>
    let z := r.zoneOf i
    let d := ahead r.len x (r.startOf i)
    if 1 ≤ d && z != 255 && z != here then some (z, d) else none).foldl nearer none

/-- Table 3.2: the ceilings ahead of x: the ceiling at x, then those of the next min(4, N − 1) segments with the
distance from x to their starts. -/
def Route.ceilingsAhead (r : Route) (x : Nat) : Nat × List (Nat × Nat) :=
  match r.segmentAt x with
  | none => (0, [])
  | some (i, _) =>
    let n := r.segments.length
    let ceilingOf := fun j => (r.segments[j]?.map Segment.ceiling).getD 0
    (ceilingOf i, (List.range (min 4 (n - 1))).map fun j =>
      let m := (i + 1 + j) % n
      (ceilingOf m, ahead r.len x (r.startOf m)))

/-- Table 3.2: the curvature at x. -/
def Route.curvatureAt (r : Route) (x : Nat) : Int :=
  match r.segmentAt x with
  | none => 0
  | some (i, _) => (r.segments[i]?.map Segment.curvature).getD 0

/-- Table 3.2: the tail of a front at x. -/
def Route.tailOf (r : Route) (bodyLength x : Nat) : Nat := (x + (r.len - bodyLength % r.len)) % r.len

/-- R34: the held markers in route order, as code and route position. -/
def Route.markers (r : Route) : List (Nat × Nat) :=
  (List.range r.segments.length).flatMap fun i =>
    ((r.segments[i]?.map Segment.markers).getD []).map fun m => (m.code, r.startOf i + m.offset)

/-- Table 3.2: the route position of the held marker with a code. -/
def Route.markerPos (r : Route) (code : Nat) : Option Nat := (r.markers.find? fun m => m.1 = code).map Prod.snd

/-- The marker that follows a code in a list of markers in route order; the first marker after the last. -/
def followingIn (first : Option Nat) : List (Nat × Nat) → Nat → Option Nat
  | [], _ => none
  | m :: ms, code => if m.1 = code then (match ms with | [] => first | n :: _ => some n.1) else followingIn first ms code

/-- R34: the marker after a marker, wrapping from the last to the first. -/
def Route.markerAfter (r : Route) (code : Nat) : Option Nat :=
  followingIn (r.markers.head?.map Prod.fst) r.markers code

/-- The distance ahead from one held marker to the next, µm; a whole loop when they are the same. -/
def Route.markerGap (r : Route) (code next : Nat) : Nat :=
  match r.markerPos code, r.markerPos next with
  | some a, some b => 1000 * (if ahead r.len a b = 0 then r.len else ahead r.len a b)
  | _, _ => 0

/-- R26: the route position of a peer's segment and offset, clamped to the own route; unknown at segment 255. -/
def Route.peerPos (r : Route) (segment offset : Nat) : Option Nat :=
  if segment = 255 then none
  else if segment < r.segments.length then
    some (r.startOf segment + min offset (((r.segments[segment]?.map Segment.length).getD 0) - 1))
  else some (r.len - 1)

/-- R81: whether the vehicle with this tail occupies zone z: some position from the tail to the front lies in it. -/
def Route.occupied (r : Route) (bodyLength front z : Nat) : Bool :=
  let tail := r.tailOf bodyLength front
  r.zoneAt tail = z || (match r.entry z with | none => false | some e => ahead r.len tail e ≤ bodyLength)

end Sys2Proof.Machine
end

