-- ==== Sys2Proof/Machine/Image.lean ====
section
/-! DEFINITION. The show image (Table 11.7) as R182 and R189 read it: the whole-image checks, and the route, cue and clip
records with their clamps (R31, R33, R34, R145, R161). -/
namespace Sys2Proof.Machine

/-! ## Layout -/

/-- Table 11.7: the counts of the header. -/
def imageSegments (image : List Byte) : Nat := half2 image 2
def imageZones (image : List Byte) : Nat := half2 image 4
def imageCues (image : List Byte) : Nat := half2 image 6

/-- Table 11.7: the place of the integrity word. -/
def imageWordAt (image : List Byte) : Nat :=
  16 + 24 * imageSegments image + 4 * imageZones image + 20 * imageCues image + 1024

/-- The record of a size that begins at a place. -/
def recordAt (image : List Byte) (o size : Nat) : List Byte := (image.drop o).take size

/-- The n-th records of the four kinds. -/
def segmentBytes (image : List Byte) (n : Nat) : List Byte := recordAt image (16 + 24 * n) 24
def zoneBytes (image : List Byte) (n : Nat) : List Byte := recordAt image (16 + 24 * imageSegments image + 4 * n) 4
def cueBytes (image : List Byte) (n : Nat) : List Byte :=
  recordAt image (16 + 24 * imageSegments image + 4 * imageZones image + 20 * n) 20
def clipBytes (image : List Byte) (n : Nat) : List Byte :=
  recordAt image (16 + 24 * imageSegments image + 4 * imageZones image + 20 * imageCues image + 8 * n) 8

/-! ## Zones (R33, R189) -/

/-- R33: a zone record; its capacity is clamped to 1–4. -/
def takeZone (z : List Byte) : Taken ZoneRecord :=
  let capacity := clampTaken 1 4 (byteAt z 1)
  { value := { id := byteAt z 0, capacity := capacity.value, marked := byteAt z 2 % 2 = 1 }, clamped := capacity.clamped }

/-- R189: a zone record is held unless its id is above 63 or held already. -/
def addZone (acc : Taken (List ZoneRecord)) (z : List Byte) : Taken (List ZoneRecord) :=
  let q := takeZone z
  if 63 < q.value.id || acc.value.any (fun h => h.id = q.value.id) then { acc with clamped := true }
  else { value := acc.value ++ [q.value], clamped := acc.clamped || q.clamped }

/-- R189: the zone records held: those of the first 64. -/
def takeZones (image : List Byte) : Taken (List ZoneRecord) :=
  ((List.range (min 64 (imageZones image))).map (zoneBytes image)).foldl addZone
    { value := [], clamped := decide (64 < imageZones image) }

/-! ## Segments and markers (R31, R34) -/

/-- A 16-bit two's complement field. -/
def signed16 (v : Nat) : Int := (BitVec.ofNat 16 v).toInt

/-- R34: one marker slot: held when its code is not 0 and not held already, and its offset lies in the segment beyond
the one held before it. -/
def addMarker (length : Nat) (codes : List Nat) (acc : Taken (List Marker)) (m : Marker) : Taken (List Marker) :=
  if m.code != 0 && m.offset < length && acc.value.all (fun h => h.offset < m.offset && h.code != m.code)
      && !codes.contains m.code then
    { acc with value := acc.value ++ [m] }
  else { acc with clamped := true }

/-- R34, R189: the markers of a segment; a count above 4 is taken as 4. -/
def takeMarkers (g : List Byte) (length : Nat) (codes : List Nat) : Taken (List Marker) :=
  ((List.range (min 4 (byteAt g 7))).map fun i =>
      ({ offset := half2 g (8 + 4 * i), code := half2 g (10 + 4 * i) } : Marker)).foldl (addMarker length codes)
    { value := [], clamped := decide (4 < byteAt g 7) }

/-- R31: a segment's zone: 64–254, or an id with no zone record, is taken as 255. -/
def segmentZone (zones : List ZoneRecord) (z : Nat) : Taken Nat :=
  if z = 255 || zones.any (fun q => q.id = z) then { value := z, clamped := false } else { value := 255, clamped := true }

/-- R31: a segment record with its clamps. `codes` are the marker codes held earlier in route order. -/
def takeSegment (zones : List ZoneRecord) (codes : List Nat) (g : List Byte) : Taken Segment :=
  let length := clampTaken 100 16000 (half2 g 0)
  let curvature := clampInt (-2000) 2000 (signed16 (half2 g 2))
  let ceiling := clampTaken 100 4000 (half2 g 4)
  let zone := segmentZone zones (byteAt g 6)
  let markers := takeMarkers g length.value codes
  { value :=
      { length := length.value, curvature := curvature, ceiling := ceiling.value, zone := zone.value
        markers := markers.value }
    clamped := length.clamped || curvature != signed16 (half2 g 2) || ceiling.clamped || zone.clamped || markers.clamped }

/-- The marker codes that segments hold. -/
def heldCodes (gs : List Segment) : List Nat := gs.flatMap fun g => g.markers.map Marker.code

/-- R31, R34: the segments in order. -/
def takeSegments (image : List Byte) (zones : List ZoneRecord) : Taken (List Segment) :=
  ((List.range (imageSegments image)).map (segmentBytes image)).foldl
    (fun acc g =>
      let q := takeSegment zones (heldCodes acc.value) g
      { value := acc.value ++ [q.value], clamped := acc.clamped || q.clamped })
    { value := [], clamped := false }

/-! ## Route -/

/-- R31 to R34, R182: the route of an image, with its clamps. The berth distance is clamped below the station zone's
length. -/
def takeRoute (image : List Byte) : Taken Route :=
  let zones := takeZones image
  let segments := takeSegments image zones.value
  let id := clampTaken 0 15 (byteAt image 0)
  let bare : Route :=
    { id := id.value, segments := segments.value, zones := zones.value, stationZone := byteAt image 1, berthDepth := 0 }
  let berth := clampTaken 0 (bare.zoneLength bare.stationZone - 1) (half2 image 8)
  { value := { bare with berthDepth := berth.value }
    clamped := zones.clamped || segments.clamped || id.clamped || berth.clamped }

/-- R182: a segment as the whole-image checks see it: its length as read, and its zone; an id that no held zone record has
is no zone (R31, R33; log 19). -/
def rawSegment (zones : List ZoneRecord) (g : List Byte) : Segment where
  length := half2 g 0
  curvature := 0
  ceiling := 0
  zone := (segmentZone zones (byteAt g 6)).value
  markers := []

/-- R182: the records as read, before "field checks and clamps are then made". -/
def rawRoute (image : List Byte) : Route :=
  let zones := (takeZones image).value
  { id := byteAt image 0
    segments := (List.range (imageSegments image)).map fun n => rawSegment zones (segmentBytes image n)
    zones := zones, stationZone := byteAt image 1, berthDepth := half2 image 8 }

/-- R33: a zone that segments name forms one run, is not the whole loop, and is no shorter than the body. -/
def zoneTest (r : Route) (bodyLength z : Nat) : Bool :=
  z = 255 || ((r.runStarts z).length = 1 && bodyLength ≤ r.zoneLength z)

/-- R33: every zone passes its tests and the station zone is named by a segment. -/
def routePasses (r : Route) (bodyLength : Nat) : Bool :=
  (r.segments.all fun g => zoneTest r bodyLength g.zone)
    && r.stationZone ≤ 63 && r.segments.any (fun g => g.zone = r.stationZone)

/-- R182: the whole-image checks: the integrity word over header and records (log 20), the segment count, and the zones of
the records as read (log 19). -/
def imagePasses (image : List Byte) (bodyLength : Nat) : Bool :=
  image.length = imageWordAt image + 2
    && decide (half2 image (imageWordAt image) = (crc16 (image.take (imageWordAt image))).toNat)
    && 2 ≤ imageSegments image && imageSegments image ≤ 256
    && routePasses (rawRoute image) bodyLength

/-! ## Clips (R161) -/

/-- R161: a clip record: absent at length 0, shortened to the flash, absent when nothing is left. -/
def takeClip (flashSize : Nat) (c : List Byte) : Taken (Option Clip) :=
  let address := field4 c 0
  let length := field3 c 4
  let room := (flashSize - address) / 2
  if length = 0 then { value := none, clamped := false }
  else if length ≤ room then
    { value := some { address := address, length := length, loops := byteAt c 7 % 2 = 1 }, clamped := false }
  else if room = 0 then { value := none, clamped := true }
  else { value := some { address := address, length := room, loops := byteAt c 7 % 2 = 1 }, clamped := true }

/-- R161: the clip table. -/
def takeClips (image : List Byte) (flashSize : Nat) : Taken (List (Option Clip)) :=
  let cs := (List.range 128).map fun n => takeClip flashSize (clipBytes image n)
  { value := cs.map Taken.value, clamped := cs.any Taken.clamped }

/-! ## Cues (R145) -/

/-- What the load checks of R145 look at. -/
structure CueContext where
  route : Route
  clips : List (Option Clip)
  cues : Nat
  own : Nat
  deriving DecidableEq, Repr

/-- Table 8.2: the trigger of a record, by its kind and argument (bytes 6–9). -/
def cueTrigger (c : List Byte) : CueTrigger :=
  match byteAt c 0 with
  | 0 => .marker (half2 c 6)
  | 1 => .position (byteAt c 6) (half2 c 8)
  | 2 => .zoneEnter (byteAt c 6)
  | 3 => .zoneLeave (byteAt c 6)
  | 4 => .sceneTime (byteAt c 6) (field3 c 7)
  | 5 => .cueDone (byteAt c 6)
  | 6 => .motion (byteAt c 6)
  | _ => .invalid

/-- R145: a POSITION offset at or beyond its segment's length is taken as that length less 1 mm. -/
def checkTrigger (r : Route) (t : CueTrigger) : Taken CueTrigger :=
  match t with
  | .position g o =>
    match r.segments[g]? with
    | none => { value := t, clamped := false }
    | some q => if o < q.length then { value := t, clamped := false } else { value := .position g (q.length - 1), clamped := true }
  | .marker _ | .zoneEnter _ | .zoneLeave _ | .sceneTime _ _ | .cueDone _ | .motion _ | .invalid =>
    { value := t, clamped := false }

/-- Table 8.3: the action of a record, by its kind and arguments (bytes 10–19); a priority above 2 is taken as 2. -/
def cueAction (c : List Byte) : Taken CueAction :=
  match byteAt c 1 with
  | 0 => { value := .linkCue (byteAt c 10) (byteAt c 11), clamped := false }
  | 1 =>
    let priority := clampTaken 0 2 (byteAt c 11)
    { value := .soundStart (byteAt c 10) priority.value [byteAt c 12, byteAt c 13, byteAt c 14, byteAt c 15]
        (if byteAt c 16 = 0 then none else some { scene := byteAt c 16, anchor := field3 c 17 })
      clamped := priority.clamped }
  | 2 => { value := .soundStop (byteAt c 10), clamped := false }
  | _ => { value := .invalid, clamped := false }

/-- R145: a scene address that disables nothing. -/
def goodScene (own a : Nat) : Bool := 1 ≤ a && a ≤ 31 && a != own

/-- R145: the trigger disables nothing. The load checks do not name a MOTION state code above 8, the last of Table 11.4:
such a cue stays enabled, is no clamp, and never occurs (log 39). -/
def triggerStands (x : CueContext) : CueTrigger → Bool
  | .marker code => (x.route.markerPos code).isSome
  | .position g _ => g < x.route.segments.length
  | .zoneEnter z | .zoneLeave z => (x.route.zoneRecord z).isSome && (x.route.entry z).isSome
  | .sceneTime a _ => goodScene x.own a
  | .cueDone cue => cue < x.cues
  | .motion _ => true
  | .invalid => false

/-- R145: the action disables nothing. -/
def actionStands (x : CueContext) : CueAction → Bool
  | .linkCue a _ => goodScene x.own a
  | .soundStart clip _ _ lock => ((x.clips[clip]?).join).isSome && lock.all fun l => goodScene x.own l.scene
  | .soundStop cue => cue < x.cues
  | .invalid => false

/-- R145: a cue entry with its checks. -/
def takeCue (x : CueContext) (c : List Byte) : Taken CueEntry :=
  let trigger := checkTrigger x.route (cueTrigger c)
  let action := cueAction c
  let gate := clampTaken 0 7 (byteAt c 3)
  let delay := clampTaken 0 10000 (half2 c 4)
  let stands := triggerStands x trigger.value && actionStands x action.value
  { value :=
      { trigger := trigger.value, delay := delay.value, gate := gate.value, every := byteAt c 2 % 2 = 1
        showEffect := byteAt c 2 / 2 % 2 = 1, action := action.value, enabled := stands
        fired := false, watching := false, watchExpiry := none }
    clamped := trigger.clamped || action.clamped || gate.clamped || delay.clamped || !stands }

/-- R145, R189: the cue table: the first 256 records. -/
def takeCues (image : List Byte) (r : Route) (clips : List (Option Clip)) (own : Nat) : Taken (List CueEntry) :=
  let n := min 256 (imageCues image)
  let x : CueContext := { route := r, clips := clips, cues := n, own := own }
  let cs := (List.range n).map fun i => takeCue x (cueBytes image i)
  { value := cs.map Taken.value, clamped := decide (256 < imageCues image) || cs.any Taken.clamped }

/-! ## The whole image -/

/-- The records of a taken image. -/
structure ImageRecords where
  route : Route
  cues : List CueEntry
  clips : List (Option Clip)
  deriving DecidableEq, Repr

/-- R182, R183: the records of a passing image, each checked against the others' as their owners leave them. -/
def takeImage (image : List Byte) (flashSize own : Nat) : Taken ImageRecords :=
  let r := takeRoute image
  let clips := takeClips image flashSize
  let cues := takeCues image r.value clips.value own
  { value := { route := r.value, cues := cues.value, clips := clips.value }
    clamped := r.clamped || clips.clamped || cues.clamped }

end Sys2Proof.Machine
end

