-- ==== Sys2Proof/Machine/Flags.lean ====
section
/-! DEFINITION. What is read off the state: position figures, the restraint summary (R110), the vehicle level (R128),
the persistent causes (Table 7.2), the READY requirements (R54), the scene estimate (R151). -/
namespace Sys2Proof.Machine

/-! ## Position figures -/

/-- R38: the measured speed, the sum of the history divided by 100, mm/s. -/
def State.speed (s : State) : Nat := s.tracker.history.sum / 100

/-- R45: the front's route position in mm, rounded down. -/
def State.front (s : State) : Nat := s.tracker.pos / 1000

/-- R44: the distance since marker in mm. -/
def State.sinceMm (s : State) : Nat := s.tracker.since / 1000

/-- The route and the front, while a position is handed on (R45: not in UNFIXED; R35: not without a route). -/
def State.placed (s : State) : Option (Route × Nat) :=
  if s.tracker.conf = .unfixed then none else s.route.map fun r => (r, s.front)

/-- The zone of the front: none while it is unknown, 255 on a segment with no zone. -/
def State.frontZone (s : State) : Option Nat := s.placed.map fun p => p.1.zoneAt p.2

/-- Segment and offset of the front; segment 255 goes with offset 0 (Table 1.4), also where the 256th segment of a route is
the front's. -/
def State.frontSegment (s : State) : Nat × Nat :=
  match s.placed with
  | none => (255, 0)
  | some (r, x) =>
    match r.segmentAt x with
    | none => (255, 0)
    | some (i, o) => if i = 255 then (255, 0) else (i, o)

/-- Whether the front is inside the station zone. -/
def State.inStation (s : State) : Bool :=
  match s.placed with
  | none => false
  | some (r, x) => r.zoneAt x = r.stationZone

/-- Whether the part is in the image load of START, or held in reset. -/
def State.loading (s : State) : Bool := s.resetHeld || s.loader.progress = .loading

/-! ## Motion (Table 4.3) -/

/-- R52: the brake line of a motion state, asserted or not. -/
def MotionState.brake : MotionState → Bool
  | .running => false
  | .stopping => false
  | .start | .fault | .parked | .ready | .holding | .stopped | .estop => true

/-- The brake line. -/
def State.brakeLine (s : State) : Bool := s.motion.state.brake

/-- R111: the motion states in which the vehicle moves; the same as phase qualifier MOVING (Table 7.5). -/
def MotionState.moving : MotionState → Bool
  | .running | .holding | .stopping => true
  | .start | .fault | .parked | .ready | .stopped | .estop => false

/-! ## Restraint summary (R110) -/

/-- R110, from the seat states; a seat beyond the seat count is UNUSED. -/
def summaryOf (seats : List Seat) : Summary :=
  let used := seats.filter fun q => q.state != .unused
  if used.any (fun q => q.state = .fault) then .fault
  else if used.all (fun q => q.state = .verified) then .allVerified
  else .notAllVerified

/-- The restraint summary. -/
def State.summary (s : State) : Summary := summaryOf s.restraint.seats

/-! ## Vehicle level (R128) -/

/-- A condition's part in the level: its own level when latched and DIRECT or escalated (R125, R126), else 0. -/
def Condition.weight (c : Condition) : Nat :=
  if c.latched && (!c.announceFirst || c.escalated) then c.level else 0

/-- R128: the greatest level among the conditions that contribute, and 0 when there is none. -/
def levelOf (records : List Condition) : Nat := records.foldl (fun m c => max m c.weight) 0

/-- The vehicle level. -/
def State.level (s : State) : Nat := levelOf s.cond.records

/-- A condition's record by its id 1–25. -/
def ConditionUnit.record (u : ConditionUnit) (id : Nat) : Option Condition :=
  if id = 0 then none else u.records[id - 1]?

/-! ## Peers -/

/-- The record of an address 1–31; none when it is EMPTY or there is no such address. -/
def State.peer (s : State) (address : Nat) : Option Peer :=
  if address = 0 then none else (s.peers[address - 1]?).join

/-- R24: the age of a record. -/
def State.ageOf (s : State) (p : Peer) : Nat := min Config.maxAge (s.now - p.received)

/-- R89: the counted peers, VEHICLE records whose route position is known, as address, record and position. -/
def State.countedPeers (s : State) : List (Nat × Peer × Nat) :=
  s.peers.zipIdx.filterMap fun (p, i) =>
    match p with
    | none => none
    | some q => if q.kind = .vehicle then q.routePos.map fun x => (i + 1, q, x) else none

/-- R28: some VEHICLE record is LOST. -/
def State.anyVehicleLost (s : State) : Bool :=
  s.peers.any fun p => match p with
    | none => false
    | some q => q.kind = .vehicle && q.state = .lost

/-- R29: some FRESH VEHICLE record holds a route id that differs from the own route id. -/
def State.anyRouteMismatch (s : State) : Bool :=
  match s.route with
  | none => false
  | some r => s.peers.any fun p => match p with
    | none => false
    | some q => q.kind = .vehicle && q.state = .fresh && bodyRouteId q.body != r.id

/-- R151: the scene estimate, available while the record is FRESH and of kind SCENE. -/
def State.estimate (s : State) (scene : Nat) : Option Nat :=
  match s.peer scene with
  | none => none
  | some q =>
    if q.state = .fresh && q.kind = .scene then
      some ((sceneClock q.body + (s.now - q.received)) % Config.sceneWrap)
    else none

/-- R151: the ms by which the estimate lies beyond a scene time, on the clock's loop. -/
def sceneSince (estimate x : Nat) : Nat := ahead Config.sceneWrap x estimate

/-- R151: a scene time is reached. -/
def sceneReached (estimate x : Nat) : Bool := sceneSince estimate x < Config.sceneHalf

/-- R151: the wait to a scene time. -/
def sceneWait (estimate x : Nat) : Nat := ahead Config.sceneWrap estimate x

/-- R152: the governed zone of a scene, whatever the state of its record. -/
def State.governedZone (s : State) (scene : Nat) : Option Nat :=
  match s.peer scene with
  | none => none
  | some q => if q.kind = .scene then some (sceneZone q.body) else none

/-- R152: the front stands in the zone: "A governed zone of 255, or of a zone that the Route Store does not hold, is
never one in which the front stands". -/
def State.standsIn (s : State) (z : Nat) : Bool :=
  z != 255 && s.frontZone = some z

/-! ## Persistent causes (Table 7.2, R124) -/

/-- Whether the persistent cause of a condition holds. -/
def State.cause (s : State) (id : Nat) : Bool :=
  match id with
  | 2 => s.link.ownHeard.isSome
  | 3 => s.link.silent
  | 4 => s.anyVehicleLost
  | 5 => s.anyRouteMismatch
  | 7 => s.tracker.conf = .lost
  | 9 => s.driveFaultIn
  | 10 => s.localStopIn
  | 15 => s.restraint.seats.any fun q => q.state = .fault
  | 25 => s.motion.state != .start && s.tracker.conf = .unfixed
  | _ => false

/-! ## READY (R54) -/

/-- The claim list holds a zone in stage HELD. -/
def State.holds (s : State) (z : Nat) : Bool := s.claims.any fun c => c.zone = z && c.stage = .held

/-- R54: the READY requirements. -/
def State.readyMet (s : State) : Bool :=
  s.tracker.atBerth && s.summary = .allVerified && s.tracker.conf = .good && s.level ≤ 2
    && !s.motion.immediate && !s.motion.atStation
    && (match s.frontZone with | none => false | some z => z != 255 && s.holds z)

/-! ## Link -/

/-- R1: whether the Link Controller has something to send. -/
def Link.wantsToSend (l : Link) : Bool := l.beaconDue.isSome || !l.queue.isEmpty

/-- R17, R184: whether the Link Controller contends for the channel: not in START, and not in FAULT with own address 0. -/
def State.contends (s : State) : Bool :=
  s.motion.state != .start && !(s.motion.state = .fault && s.link.ownAddress = 0)

/-- R10, R180: the receiver is on from the end of the image load, except while SENDING (R2). -/
def State.receiverOn (s : State) : Bool := !s.loading && s.link.access != .sending

end Sys2Proof.Machine
end

