-- ==== Sys2Proof/Machine/SoundOps.lean ====
section
/-! DEFINITION. The Sound Engine's shared operations: freeing, choosing, placing and stopping voices (R162 to R164,
R171), and the flash fetch arbiter (R166, R167). -/
namespace Sys2Proof.Machine

/-- The clip a number names, where the clip table holds it. -/
def SoundEngine.clip (e : SoundEngine) (c : Nat) : Option Clip := (e.clips[c]?).join

/-- The read in progress is for this voice. -/
def SoundEngine.reading (e : SoundEngine) (v : Nat) : Bool :=
  match e.read with
  | none => false
  | some r => r.voice = v

/-- R168, third way: the read in progress for this voice is ended and the port is free. -/
def SoundEngine.endRead (e : SoundEngine) (v : Nat) : SoundEngine :=
  if e.reading v then { e with read := none } else e

/-- R162: a voice becomes IDLE; active voices of a higher rank move down by one. Its read is ended (R168). -/
def SoundEngine.free (e : SoundEngine) (v : Nat) : SoundEngine :=
  match e.voices[v]? with
  | none => e
  | some w =>
    if w.state = .idle then e
    else
      { e.endRead v with
        voices := (e.voices.map fun q => if w.rank < q.rank then { q with rank := q.rank - 1 } else q).set v Voice.idle }

/-- The number of active voices. -/
def SoundEngine.activeCount (e : SoundEngine) : Nat := (e.voices.filter fun q => q.state != .idle).length

/-! ## Fetch arbiter (R166, R167) -/

/-- The size of the block of a clip that begins at a place: up to 256 samples, always 256 for a looping clip. -/
def blockLength (c : Clip) (start : Nat) : Nat :=
  if c.loops then Config.blockSize else min Config.blockSize (c.length - start)

/-- R166: the block a voice wants next, where it wants one: the block of its jump while PENDING, else the block at its
fetch point while that lies within the clip. -/
def SoundEngine.wanted (e : SoundEngine) (v : Nat) (w : Voice) : Option (Nat × Nat) :=
  if w.state = .idle || 2 ≤ w.bufs.length || e.reading v then none
  else
    match e.clip w.clip with
    | none => none
    | some c =>
      match w.jump with
      | .crossfade _ _ _ => none
      | .pending target _ => some (target, blockLength c target)
      | .none => if c.loops || w.fetch < c.length then some (w.fetch, blockLength c w.fetch) else none

/-- R166: the buffered samples of a voice, those at and after its position; 0 while its jump is PENDING. -/
def Voice.buffered (w : Voice) : Nat :=
  match w.jump with
  | .pending _ _ => 0
  | .none | .crossfade _ _ _ =>
    (w.bufs.map fun b => (b.start + b.samples.length) - max b.start w.cursor).sum

/-- A voice that wants a block: its number, its buffered samples, and the block. -/
structure Want where
  voice : Nat
  buffered : Nat
  start : Nat
  size : Nat
  deriving DecidableEq, Repr

/-- R167: of the best so far and the next, the one with fewer buffered samples; the lower number of equals. -/
def fewerBuffered (best : Option Want) (w : Want) : Option Want :=
  match best with
  | none => some w
  | some b => if w.buffered < b.buffered then some w else some b

/-- R167: the voice the arbiter grants, and its block. -/
def SoundEngine.grant (e : SoundEngine) : Option Want :=
  (e.voices.zipIdx.filterMap fun (w, v) =>
    (e.wanted v w).map fun b =>
      ({ voice := v, buffered := w.buffered, start := b.1, size := b.2 } : Want)).foldl fewerBuffered none

/-- R167: the arbiter grants the port when it is free and a voice wants a block. The loader holds the port during the
image load (section 9.3). -/
def arbitrate (s : State) : State :=
  if s.loading || s.sound.read.isSome then s
  else
    match s.sound.grant with
    | none => s
    | some g =>
      { s with sound := { s.sound with
          read := some { voice := g.voice, start := g.start, size := g.size, timeout := s.now + Config.readTimeout } } }

/-! ## Start and stop requests (R163, R164, R171) -/

/-- A start request (R163). -/
structure StartRequest where
  clip : Nat
  priority : Nat
  gains : List Nat
  lock : Option SceneLock
  tag : VoiceTag
  deriving DecidableEq, Repr

/-- R163, step 3: whether voice `a` is chosen before voice `b`: the lower priority, then the lower start order. -/
def stolenBefore (a b : Voice) : Bool := a.priority < b.priority || (a.priority = b.priority && a.rank < b.rank)

/-- Of the best victim so far and the next candidate, the one chosen. -/
def betterVictim (best : Option (Nat × Voice)) (c : Nat × Voice) : Option (Nat × Voice) :=
  match best with
  | none => some c
  | some b => if stolenBefore c.2 b.2 then some c else some b

/-- R163, steps 2 and 3: the voice a request of this priority takes: the lowest-numbered IDLE voice, else the victim
among active voices of strictly lower priority. -/
def SoundEngine.target (e : SoundEngine) (priority : Nat) : Option Nat :=
  match e.voices.findIdx? (fun q => q.state = .idle) with
  | some v => some v
  | none =>
    ((e.voices.zipIdx.filterMap fun (q, i) => if q.priority < priority then some (i, q) else none).foldl
      betterVictim none).map Prod.fst

/-- R164: the voice as the request places it; none when its lock places it at or beyond the end of its clip. -/
def placeVoice (now : Nat) (estimate : Option Nat) (clip : Clip) (req : StartRequest) (rank : Nat) : Option Voice :=
  let base : Voice :=
    { Voice.idle with
      state := .fetching, clip := req.clip, gains := req.gains, priority := req.priority, lock := req.lock,
      tag := req.tag, rank := rank }
  match req.lock, estimate with
  | some l, some e =>
    if sceneReached e l.anchor then
      let x := sceneSince e l.anchor * 24
      if clip.loops then
        some { base with cursor := x % clip.length, fetch := x % clip.length, lastCheck := some now }
      else if clip.length ≤ x then none
      else some { base with cursor := x, fetch := x, lastCheck := some now }
    else some { base with waitExpiry := some (now + sceneWait e l.anchor), lastCheck := some now }
  | _, _ => some base

/-- The answer to a start request: the engine after it, whether a voice was taken, the tag of a stolen voice, and
whether the voice ended at once by its lock. -/
structure StartResult where
  engine : SoundEngine
  started : Bool
  stolen : Option VoiceTag
  ended : Bool
  deriving DecidableEq, Repr

/-- R163 and R164: a start request is judged. A read that a steal ends frees the port, which the arbiter judges at once
(R167), before the voice is placed and wants its first block. -/
def startVoice (s : State) (req : StartRequest) : StartResult :=
  match s.sound.clip req.clip with
  | none => { engine := s.sound, started := false, stolen := none, ended := false }
  | some c =>
    match s.sound.target req.priority with
    | none => { engine := s.sound, started := false, stolen := none, ended := false }
    | some v =>
      let stolen := match s.sound.voices[v]? with
        | none => none
        | some w => if w.state = .idle then none else some w.tag
      let e := (arbitrate { s with sound := s.sound.free v }).sound
      match placeVoice s.now (match req.lock with | none => none | some l => s.estimate l.scene) c req (e.activeCount + 1) with
      | none => { engine := e, started := true, stolen := stolen, ended := true }
      | some w => { engine := { e with voices := e.voices.set v w }, started := true, stolen := stolen, ended := false }

/-- R171: one voice is stopped; the tag of a voice that becomes IDLE at once is given back. A voice whose PENDING jump is
abandoned fetches from where it now is (R166). -/
def stopVoice (e : SoundEngine) (v : Nat) : SoundEngine × Option VoiceTag :=
  match e.voices[v]? with
  | none => (e, none)
  | some w =>
    match w.state with
    | .playing =>
      match w.jump with
      | .pending _ _ =>
        ({ e.endRead v with
            voices := e.voices.set v
              { w with state := .fading, fadeStep := 63, jump := .none, fetch := max w.fetch w.cursor } }, none)
      | .none | .crossfade _ _ _ =>
        ({ e with voices := e.voices.set v { w with state := .fading, fadeStep := 63 } }, none)
    | .fetching | .waiting => (e.free v, some w.tag)
    | .idle | .fading => (e, none)

/-- R171: every active voice that meets a test is stopped, in voice order; the tags of those that became IDLE. -/
def stopVoices (p : Voice → Bool) (e : SoundEngine) : SoundEngine × List VoiceTag :=
  (List.range e.voices.length).foldl
    (fun (acc : SoundEngine × List VoiceTag) v =>
      match acc.1.voices[v]? with
      | none => acc
      | some w =>
        if p w then ((stopVoice acc.1 v).1, acc.2 ++ (stopVoice acc.1 v).2.toList) else acc)
    (e, [])

end Sys2Proof.Machine
end

