-- ==== Sys2Proof/Machine/Ops.lean ====
section
/-! DEFINITION. The operations that blocks share: free draws, durations, motion state entries and the level handed on
(R52, R58, R128), tally arrivals (R136, R138 to R140), occurrences of conditions (R123, R126, R127), cue occurrences
(R146), and the settling of a step (R54, R78).

An operation whose name ends in `By` takes `h`, which hands on the motion state entries that its effects make; the name
without `By` is the operation with `atOnce`, by which R78 hands each entry on before anything that follows it. Within the
handing on of an entry `h` is `waits`, which keeps the order entered (R78, R150; log 6). -/
namespace Sys2Proof.Machine

/-! ## Free values (log 4, log 5) -/

/-- The next free draw, below a bound above 0. -/
def drawBelow (bound : Nat) (s : State) : Nat × State :=
  (Config.freeNat s.draws % bound, { s with draws := s.draws + 1 })

/-- Two parts of one event that the spec lets be taken in either order (R123): a free choice. -/
def eitherOrder (f g : State → State) (s : State) : State :=
  let t := { s with draws := s.draws + 1 }
  if Config.freeOrder s.draws then g (f t) else f (g t)

/-! ## Duration events (R137) -/

/-- A running duration event is ended and discarded with its marks. -/
def endDuration (key : DurationKey) (s : State) : State :=
  { s with cond := { s.cond with durations := s.cond.durations.filter fun d => d.key != key } }

/-- A duration event starts at the present time. -/
def startDuration (key : DurationKey) (s : State) : State :=
  let t := endDuration key s
  { t with cond := { t.cond with
      durations := t.cond.durations ++ [{ key := key, start := t.now, passed := List.replicate 4 false }] } }

/-! ## Motion state entries and the level -/

/-- R52: a motion state is entered; the entry waits in `notices` for its handing on (R78; log 6). -/
def enter (st : MotionState) (s : State) : State :=
  { s with motion := { s.motion with state := st, notices := s.motion.notices ++ [st] } }

/-- R58, Table 4.5 and R59: the effect of the vehicle level on the motion state. -/
def applyLevel (s : State) : State :=
  let l := s.level
  match s.motion.state with
  | .start => s
  | .fault => s
  | .parked => if 7 ≤ l then enter .estop s else s
  | .ready => if 7 ≤ l then enter .estop s else if l = 6 then enter .stopping s else if 3 ≤ l then enter .parked s else s
  | .running => if 7 ≤ l then enter .estop s else if l = 6 then enter .stopping s else s
  | .holding => if 7 ≤ l then enter .estop s else if l = 6 then enter .stopping s else s
  | .stopping => if 7 ≤ l then enter .estop s else s
  | .stopped => if 7 ≤ l then enter .estop s else s
  | .estop => if l ≤ 6 ∧ s.speed = 0 then enter .stopped s else s

/-- R128: the level is handed on when it differs from the level last handed on; the entry that it makes is handed on at
once (R58, R78). -/
def handLevelBy (h : State → State) (s : State) : State :=
  if s.level = s.cond.handed then s
  else h (applyLevel { s with cond := { s.cond with handed := s.level } })

/-- The level is handed on, except within a CLEAR (R131), where it is held back to step 7. -/
def levelStepBy (h : State → State) (hold : Bool) (s : State) : State := if hold then s else handLevelBy h s

/-! ## Condition records -/

/-- A change of one condition's record. -/
def onRecord (id : Nat) (f : Condition → Condition) (s : State) : State :=
  { s with cond := { s.cond with
      records := if id = 0 then s.cond.records else updateAt (id - 1) f s.cond.records } }

/-- R127: the remaining count drops by one; at 0 the condition escalates. -/
def Condition.drop (c : Condition) : Condition :=
  if c.remaining = 0 then c
  else { c with remaining := c.remaining - 1, escalated := c.escalated || c.remaining = 1 }

/-- R127: the condition's voice becomes IDLE: a COUNTING announcement drops the count, any becomes NONE. -/
def Condition.voiceEnd (c : Condition) : Condition :=
  match c.announcement with
  | .counting => { c.drop with announcement := .none }
  | .uncounted => { c with announcement := .none }
  | .none => c

/-- R173: a voice with this tag has ended without completion. A cue's action ends without completion and nothing
occurs (R157). -/
def endWithoutBy (h : State → State) (hold : Bool) (tag : VoiceTag) (s : State) : State :=
  match tag with
  | .cue _ => s
  | .condition id => levelStepBy h hold (onRecord id Condition.voiceEnd s)
  | .stopAnnouncement => { s with motion := { s.motion with stopVoice := false } }
  | .resumeAnnouncement => { s with motion := { s.motion with resumeVoice := false } }

/-- R163: a block asks for a voice; the stolen voice's report is made before the answer (R173), and a started voice
wants its first block at once (R164). -/
def requestVoiceBy (h : State → State) (hold : Bool) (req : StartRequest) (s : State) : State × StartResult :=
  let r := startVoice s req
  let t := arbitrate { s with sound := r.engine }
  (match r.stolen with
    | none => t
    | some tag => endWithoutBy h hold tag t, r)

/-! ## First-fault record (R133, Table 7.4) -/

/-- The snapshot that an occurrence of this condition takes. Its motion state is the one entered (log 50). -/
def firstFaultOf (id level : Nat) (s : State) : FirstFault where
  condition := id
  level := level
  motion := s.motion.state
  conf := s.tracker.conf
  segment := s.frontSegment.1
  offset := s.frontSegment.2
  zone := s.frontZone.getD 255
  lap := s.tracker.lap.toNat
  speed := s.speed
  time := min s.now 4294967295

/-- R133: an occurrence of level 4 or more fills an empty record. -/
def fillFirstFault (id : Nat) (s : State) : State :=
  match s.cond.record id with
  | none => s
  | some c =>
    if 4 ≤ c.level && s.cond.firstFault.isNone then
      { s with cond := { s.cond with firstFault := some (firstFaultOf id c.level s) } }
    else s

/-! ## Tally counters -/

/-- Table 7.5: the motion state lies in the phase qualifier. -/
def Phase.met (q : Phase) (m : MotionState) : Bool :=
  match q with
  | .any => true
  | .moving => m.moving
  | .parked => m = .parked || m = .ready
  | .stopped => m = .stopped || m = .estop

/-- R136: the front's zone meets the zone qualifier; MARKED and UNMARKED are both unmet while it is unknown. -/
def ZoneQualifier.met (q : ZoneQualifier) (s : State) : Bool :=
  match q with
  | .any => true
  | .marked => match s.placed with
    | none => false
    | some (r, x) => r.zoneAt x != 255 && r.marked (r.zoneAt x)
  | .unmarked => match s.placed with
    | none => false
    | some (r, x) => r.zoneAt x = 255 || !r.marked (r.zoneAt x)

/-- R136: whether a counter takes an arrival of an event. The motion state read is the one entered, also while its entry
waits to be handed on (log 50). -/
def Counter.takes (c : Counter) (event : TallyEvent) (s : State) : Bool :=
  event != .none && c.event = event && !s.cond.frozen && !c.tripped && (!c.chained || c.armed)
    && c.phase.met s.motion.state && c.zone.met s

/-- R136, R139: a counter that takes an arrival adds its amount up to the limit, and trips at the limit. -/
def Counter.add (c : Counter) (amount : Nat) : Counter :=
  { c with value := min c.limit (c.value + amount), tripped := c.limit ≤ c.value + amount }

/-- R138, R140: the trip of counter 1 arms the chained counters, and a freeze-on-trip trip freezes all. `trips` are
counter numbers 1–4. -/
def applyTrips (trips : List Nat) (u : ConditionUnit) : ConditionUnit :=
  { u with
    counters := u.counters.map fun c => if trips.contains 1 && c.chained then { c with armed := true } else c
    frozen := u.frozen || trips.any fun k => ((u.counters[k - 1]?).map Counter.freeze).getD false }

/-- R136: an arrival is judged by all counters that `offered` names, against the state before it; the counters that
tripped, by number, are given back. -/
def tallyCore (offered : Nat → Bool) (event : TallyEvent) (amount : Nat) (s : State) : State × List Nat :=
  let judged := s.cond.counters.zipIdx.map fun (c, i) =>
    if offered (i + 1) && c.takes event s then c.add amount else c
  let trips := (s.cond.counters.zipIdx.filter fun (c, i) =>
    offered (i + 1) && c.takes event s && (c.add amount).tripped).map fun p => p.2 + 1
  ({ s with cond := applyTrips trips { s.cond with counters := judged } }, trips)

/-! ## Occurrences of conditions (R123) -/

/-- R126: the announcement request of a condition. -/
def conditionRequest (id clip : Nat) : StartRequest where
  clip := clip
  priority := 3
  gains := [128, 128, 128, 128]
  lock := none
  tag := .condition id

/-- R126: step 3 of an occurrence of an ANNOUNCE_FIRST condition; whether a voice was stolen. No request is made
during the image load (R123). -/
def announceBy (h : State → State) (hold : Bool) (id : Nat) (s : State) : State × Bool :=
  match s.cond.record id with
  | none => (s, false)
  | some c =>
    if !c.announceFirst || s.loading || c.remaining = 0 || c.announcement != .none then (s, false)
    else
      match c.clip with
      | none => (onRecord id Condition.drop s, false)
      | some clip =>
        let r := requestVoiceBy h hold (conditionRequest id clip) s
        if r.2.started then
          (onRecord id (fun q => { q with announcement := .counting }) r.1, r.2.stolen.isSome)
        else (onRecord id Condition.drop r.1, false)

/-- R123, steps 1 to 3. -/
def occurrenceBy (h : State → State) (hold : Bool) (id : Nat) (s : State) : State × Bool :=
  announceBy h hold id (fillFirstFault id (onRecord id (fun c => { c with latched := true }) s))

/-- R123: an occurrence of a condition. A voice stolen for its announcement is a VOICE_STEAL arrival, which may trip
counters and so latch TALLY conditions in counter order (R139); four counters can trip, so four levels of nesting
hold every such chain (log 16). -/
def latchWithBy (h : State → State) (hold : Bool) : Nat → Nat → State → State
  | 0, id, s =>
    let o := occurrenceBy h hold id s
    levelStepBy h hold (if o.2 then (tallyCore (fun _ => true) .voiceSteal 1 o.1).1 else o.1)
  | n + 1, id, s =>
    let o := occurrenceBy h hold id s
    let t := tallyCore (fun _ => true) .voiceSteal 1 o.1
    levelStepBy h hold (if o.2 then t.2.foldl (fun a k => latchWithBy h hold n (19 + k) a) t.1 else o.1)

/-- R123: an occurrence outside a CLEAR. -/
def latchBy (h : State → State) (id : Nat) (s : State) : State := latchWithBy h false 4 id s

/-- R139: the trips of an arrival latch their TALLY conditions in counter order. -/
def latchTripsBy (h : State → State) (r : State × List Nat) : State := r.2.foldl (fun a k => latchBy h (19 + k) a) r.1

/-- R136: an instant tally event arrives with an amount. -/
def tallyBy (h : State → State) (event : TallyEvent) (amount : Nat) (s : State) : State :=
  latchTripsBy h (tallyCore (fun _ => true) event amount s)

/-- R163: the VOICE_STEAL event of a request that stole a voice, once the request has been answered (log 16). -/
def stealEventBy (h : State → State) (r : StartResult) (s : State) : State :=
  if r.stolen.isSome then tallyBy h .voiceSteal 1 s else s

/-! ## Cue occurrences (R146) -/

/-- R146, R147: a cue fires: it joins the pending list behind entries of the same due time, and a ONCE_PER_LAP cue sets
its fired marker. -/
def fireCue (id : Nat) (c : CueEntry) (s : State) : State :=
  { s with cues :=
      { table := updateAt id (fun q => { q with fired := q.fired || !q.every }) s.cues.table
        waiting := insertByKey WaitingCue.due { cue := id, due := s.now + c.delay } s.cues.waiting } }

/-- R146, fourth test: a dropped firing is a CUE_DROPPED event, offered to the counters first (R123), and an occurrence
of CUE_DROP. -/
def dropCueBy (h : State → State) (s : State) : State := latchBy h 17 (tallyBy h .cueDropped 1 s)

/-- R146: an occurrence of a cue is judged by gate, fired marker, pending list and room. -/
def cueOccurBy (h : State → State) (s : State) (id : Nat) : State :=
  match s.cues.table[id]? with
  | none => s
  | some c =>
    if !c.enabled || c.gate < s.level || (!c.every && c.fired) || s.cues.waiting.any (fun w => w.cue = id) then s
    else if Config.waitingCap ≤ s.cues.waiting.length then dropCueBy h s
    else fireCue id c s

/-- The enabled cues whose trigger meets a test, in cue id order. -/
def cuesWhere (p : CueTrigger → Bool) (s : State) : List Nat :=
  s.cues.table.zipIdx.filterMap fun (c, i) => if c.enabled && p c.trigger then some i else none

/-- Every enabled cue whose trigger meets a test occurs, in cue id order. -/
def occurWhereBy (h : State → State) (p : CueTrigger → Bool) (s : State) : State :=
  (cuesWhere p s).foldl (cueOccurBy h) s

/-- R150: an entry into a motion state: every MOTION trigger for it occurs. -/
def motionTriggersBy (h : State → State) (st : MotionState) (s : State) : State :=
  occurWhereBy h (fun t => t = .motion st.code) s

/-! ## Motion state entries handed on (R78) -/

/-- R116: the unlock conditions are withdrawn: every energised solenoid goes off and every pulse expiry becomes none. -/
def withdrawUnlock (s : State) : State :=
  { s with restraint := { s.restraint with
      seats := s.restraint.seats.map fun q => { q with solenoid := false, pulse := none } } }

/-- R77: the stop announcement is requested on entry to STOPPING or ESTOP. -/
def stopAnnouncementBy (h : State → State) (s : State) : State :=
  match s.settings.stopClip with
  | none => s
  | some clip =>
    if s.motion.stopVoice then s
    else
      let r := requestVoiceBy h false
        { clip := clip, priority := 3, gains := [128, 128, 128, 128], lock := none, tag := .stopAnnouncement } s
      stealEventBy h r.2 { r.1 with motion := { r.1.motion with stopVoice := r.2.started } }

/-- R171: the engine acts on the voices below priority 3 at an entry into STOPPING or ESTOP; a read that this ends
frees the port, which the arbiter judges at once (R167). -/
def fadeShowBy (h : State → State) (s : State) : State :=
  let r := stopVoices (fun w => w.priority < 3) s.sound
  r.2.foldl (fun a t => endWithoutBy h false t a) (arbitrate { s with sound := r.1 })

/-- R159: the show-effect cues are withdrawn from the pending list. -/
def withdrawShow (s : State) : State :=
  { s with cues := { s.cues with
      waiting := s.cues.waiting.filter fun w => !((s.cues.table[w.cue]?).map CueEntry.showEffect).getD false } }

/-- R78: an entry into a motion state is handed to the Restraint Monitor (R116), the Condition Unit (HOLD_LONG), the
Sound Engine (R171, R77) and the Cue Sequencer (R159 before R150). -/
def deliverBy (h : State → State) (st : MotionState) (s : State) : State :=
  let s1 := if st = .parked then s else withdrawUnlock s
  let s2 := if st = .holding then startDuration .holdLong s1 else endDuration .holdLong s1
  let s3 := if st = .stopping ∨ st = .estop then withdrawShow (stopAnnouncementBy h (fadeShowBy h s2)) else s2
  motionTriggersBy h st s3

/-- No entry waits to be handed on. -/
def dropNotices (s : State) : State := { s with motion := { s.motion with notices := [] } }

/-- R78, R150: an entry made while another is being handed on waits in `notices` until every block has taken that one
(log 6). -/
def waits (s : State) : State := s

/-- R78, R150: the entries that wait are handed on state by state, in the order entered; one that such a handing on makes
is the next behind those that wait. The bound is above any number of entries that one event can make (Table 4.4; log 6). -/
def handNotices : Nat → State → State
  | 0, s => dropNotices s
  | n + 1, s =>
    match s.motion.notices with
    | [] => s
    | st :: rest =>
      handNotices n (deliverBy waits st { s with motion := { s.motion with notices := rest } })

/-- R78: every entry that waits is handed on. -/
def atOnce (s : State) : State := handNotices 64 s

/-! ## The operations as commands use them -/

/-- R58, R128: the level is handed on. -/
def handLevel (s : State) : State := handLevelBy atOnce s

/-- R173: a voice with this tag has ended without completion. -/
def endWithout (tag : VoiceTag) (s : State) : State := endWithoutBy atOnce false tag s

/-- R163: a block asks for a voice. -/
def requestVoice (req : StartRequest) (s : State) : State × StartResult := requestVoiceBy atOnce false req s

/-- R123: an occurrence outside a CLEAR. -/
def latch (id : Nat) (s : State) : State := latchBy atOnce id s

/-- R131: an occurrence within a CLEAR, whose level is held back to step 7. -/
def latchHeld (id : Nat) (s : State) : State := latchWithBy atOnce true 4 id s

/-- R139: the trips of an arrival latch their TALLY conditions in counter order. -/
def latchTrips (r : State × List Nat) : State := latchTripsBy atOnce r

/-- R136: an instant tally event arrives with an amount. -/
def tally (event : TallyEvent) (amount : Nat) (s : State) : State := tallyBy atOnce event amount s

/-- R163: the VOICE_STEAL event of a request that stole a voice. -/
def stealEvent (r : StartResult) (s : State) : State := stealEventBy atOnce r s

/-- What a block reports to the Condition Unit in one event. -/
inductive Report where
  | tally (event : TallyEvent)
  | latch (id : Nat)
  deriving DecidableEq, Repr

/-- Reports taken in the order the owner gives them (R123). -/
def reportAll (rs : List Report) (s : State) : State :=
  rs.foldl (fun a r => match r with
    | .tally e => tally e 1 a
    | .latch id => latch id a) s

/-- R146: a firing is dropped. -/
def dropCue (s : State) : State := dropCueBy atOnce s

/-- R146: an occurrence of a cue. -/
def cueOccur (s : State) (id : Nat) : State := cueOccurBy atOnce s id

/-- Every enabled cue whose trigger meets a test occurs, in cue id order. -/
def occurWhere (p : CueTrigger → Bool) (s : State) : State := occurWhereBy atOnce p s

/-- R157: the completion of a cue's action: every CUE_DONE trigger that names it occurs. -/
def cueDone (id : Nat) (s : State) : State := occurWhere (fun t => t = .cueDone id) s

/-- R150: a release of a zone's claim: every ZONE_LEAVE trigger for the zone occurs. -/
def zoneLeave (s : State) (zone : Nat) : State := occurWhere (fun t => t = .zoneLeave zone) s

/-- R173: a voice with this tag has ended, with completion or without. -/
def endReport (tag : VoiceTag) (completed : Bool) (s : State) : State :=
  match tag with
  | .cue id => if completed then cueDone id s else s
  | .condition _ | .stopAnnouncement | .resumeAnnouncement => endWithout tag s

/-! ## Standing judgements (R54 to R56) -/

/-- R54 to R56: the changes between PARKED, READY and STOPPED that hold whenever their inputs change: at berth no
leaves PARKED and READY, at berth yes leaves STOPPED, and the READY requirements are judged. -/
def judgeStanding (s : State) : State :=
  match s.motion.state with
  | .parked => if !s.tracker.atBerth then enter .stopped s else if s.readyMet then enter .ready s else s
  | .ready => if !s.tracker.atBerth then enter .stopped s else if s.readyMet then s else enter .parked s
  | .stopped => if s.tracker.atBerth then enter .parked s else s
  | .start | .fault | .running | .holding | .stopping | .estop => s

/-- R55, R56: at berth is judged as soon as the Position Tracker reports it: no takes PARKED and READY to STOPPED, yes takes
STOPPED to PARKED; the entry is handed on at once (log 43). -/
def judgeBerth (s : State) : State :=
  match s.motion.state with
  | .parked | .ready => if s.tracker.atBerth then s else atOnce (enter .stopped s)
  | .stopped => if s.tracker.atBerth then atOnce (enter .parked s) else s
  | .start | .fault | .running | .holding | .stopping | .estop => s

/-- The standing judgements are made and the entries handed on, until none is left (log 6). A standing change is entered
before the entry it follows is handed on (log 51). -/
def settleLoop : Nat → State → State
  | 0, s => dropNotices s
  | n + 1, s =>
    let t := judgeStanding s
    match t.motion.notices with
    | [] => t
    | _ :: _ => settleLoop n (atOnce t)

/-- The end of a step: every judgement and notice it calls for, then the fetch arbiter's (R167). -/
def settle (s : State) : State := arbitrate (settleLoop 64 s)

end Sys2Proof.Machine
end

