-- ==== Sys2Proof/Machine/LinkOps.lean ====
section
/-! DEFINITION. The Link Controller's shared operations: the request for the channel (R1), the transmit queue (R6, R7,
R9), refusals (R14), reception (R10, R16) and the target and authority checks (R12, R13). -/
namespace Sys2Proof.Machine

/-! ## Channel access (R1) -/

/-- R1: COUNTDOWN is entered with a new draw from 0 to 2^k − 1. -/
def enterCountdown (s : State) : State :=
  let d := drawBelow (2 ^ s.link.k) s
  { d.2 with link := { d.2.link with access := .countdown, slots := d.1 } }

/-- R1, Table 1.3: something to send arises. From IDLE the state enters GAP, or COUNTDOWN at once when carrier detect
has been off for 50 µs or more. -/
def requestChannel (s : State) : State :=
  if s.link.access = .idle && s.contends && s.link.wantsToSend then
    if s.link.quiet && !s.link.carrier then enterCountdown s else { s with link := { s.link with access := .gap } }
  else s

/-! ## Refusals (R14) -/

/-- R14: a refusal overwrites the whole record. -/
def refuse (kind : CommandKind) (reason : RefusalReason) (source : Nat) (s : State) : State :=
  { s with link := { s.link with lastRefusal := some { kind := kind, reason := reason, source := source } } }

/-! ## Transmit queue (R6) -/

/-- The frame is a CUE. -/
def QueuedFrame.isCue : QueuedFrame → Bool
  | .cue _ _ _ _ => true
  | .report _ _ => false

/-- R6, R7: a CUE joins the back of the CUE class, ahead of every REPORT. -/
def joinCue (f : QueuedFrame) (q : List QueuedFrame) : List QueuedFrame :=
  q.filter QueuedFrame.isCue ++ [f] ++ q.filter fun g => !g.isCue

/-- R7: the REPORT enqueued most recently, and the queue without it. -/
def dropReport (q : List QueuedFrame) : Option (Nat × List QueuedFrame) :=
  match (q.filter fun g => !g.isCue).getLast? with
  | some (.report dest _) => some (dest, q.filter QueuedFrame.isCue ++ (q.filter fun g => !g.isCue).dropLast)
  | _ => none

/-- R7: a CUE frame is offered: it joins, displaces the newest REPORT (a refusal of its QUERY), or is dropped. -/
def offerCue (id dest : Nat) (body : List Byte) (s : State) : State :=
  let f := QueuedFrame.cue s.now id dest body
  if s.link.queue.length < Config.queueCap then
    requestChannel { s with link := { s.link with queue := joinCue f s.link.queue } }
  else
    match dropReport s.link.queue with
    | some (source, rest) =>
      refuse .query .queueFull source { s with link := { s.link with queue := joinCue f rest } }
    | none => dropCue s

/-- R9: a REPORT built for a QUERY joins the back of the REPORT class, or its QUERY is refused when the queue is full. -/
def offerReport (source : Nat) (body : List Byte) (s : State) : State :=
  if s.link.queue.length < Config.queueCap then
    requestChannel { s with link := { s.link with queue := s.link.queue ++ [.report source body] } }
  else refuse .query .queueFull source s

/-! ## Reception (R10, R16) -/

/-- Carrier detect goes off: the gap starts again (Table 1.3). -/
def carrierOff (s : State) : State :=
  { s with link := { s.link with carrier := false, quiet := false, frameLost := false } }

/-- R2, R10: the frame whose carrier now goes off is received. -/
def State.hears (s : State) : Bool := s.receiverOn && !s.link.frameLost

/-- R10, R16: a valid frame restarts the silence timer, and the persistent cause of LINK_SILENT ends. -/
def validFrame (s : State) : State := { s with link := { s.link with silence := some s.now, silent := false } }

/-- R10: a frame that fails a check is discarded: a FRAME_BAD tally event. -/
def badFrame (s : State) : State := tally .frameBad 1 s

/-! ## Commands (R12, R13) -/

/-- R12: the target check. Target 0 is taken for CLEAR, FORGET and RETIRE; STOP carries no target. -/
def targetTaken (kind : CommandKind) (own target : Nat) : Bool :=
  match kind with
  | .stop => true
  | .clear | .forget | .retire => target = 0 || target = own
  | .resume | .dispatch | .unlock | .query | .restart => target != 0 && target = own

/-- Table 1.5: the station kinds that may give a command. -/
def mayCommand (kind : CommandKind) (k : StationKind) : Bool :=
  match kind with
  | .stop => k = .scene || k = .load || k = .operator
  | .dispatch | .unlock => k = .load
  | .resume | .clear | .retire | .forget | .query | .restart => k = .operator

/-- R12: the authority check; the reason when it fails. Freshness is judged first. -/
def authority (kind : CommandKind) (source : Nat) (s : State) : Option RefusalReason :=
  match s.peer source with
  | none => some .unknownSource
  | some p =>
    if p.state != .fresh then some .unknownSource
    else if mayCommand kind p.kind then none
    else some .wrongSourceKind

/-- R12, R13: a valid command frame is ignored, refused, or handed to its owner. -/
def command (kind : CommandKind) (source target : Nat) (owner : State → State) (s : State) : State :=
  if !targetTaken kind s.link.ownAddress target then s
  else
    match authority kind source s with
    | some reason => refuse kind reason source s
    | none => owner s

/-- R10: the reception of a command frame of one of the command rows: carrier detect goes off, the frame is heard or
lost, its source is checked, and the command is checked and handed on (log 7). It is received also where no CARRIER_ON
stands before it (log 48). -/
def commandRow (kind : CommandKind) (source target : Nat) (owner : State → State) (s : State) : State :=
  let t := carrierOff s
  if !s.hears then t
  else if source = 0 || 31 < source then badFrame t
  else command kind source target owner (validFrame t)

end Sys2Proof.Machine
end

