-- ==== Sys2Proof/Machine/Restraint.lean ====
section
/-! DEFINITION. The Restraint Monitor: the line test (R99 to R103), seat readings and states (R104 to R112), UNLOCK
(R113 to R116), and the commands LINE_TEST_SAMPLE, WINDOW_END, UNLOCK and UNLOCK_PULSE_EXPIRY. -/
namespace Sys2Proof.Machine

/-! ## Line test (R99 to R101) -/

/-- R100: the bits b(j) that follow, each the exclusive-or of the one before it and the one seven before it; the seven
bits before are given newest first. -/
def lfsrFrom : Nat → List Bool → List Bool
  | 0, _ => []
  | n + 1, w =>
    let b := w.getD 0 false ^^ w.getD 6 false
    b :: lfsrFrom n (b :: w.take 6)

/-- R100: the 127-bit sequence. -/
def lfsrSequence : List Bool := List.replicate 7 true ++ lfsrFrom 120 (List.replicate 7 true)

/-- R100, R101: the bit that line k drives at sample n. -/
def driveBit (c : Settings) (k n : Nat) : Bool :=
  match c.testMode with
  | .lfsr => lfsrSequence.getD ((n + 10 * k) % 127) false
  | .fixed => c.fixedPattern.getLsbD (15 - n % 16)
  | .off => true

/-- R99: the lines of used seats are driven. -/
def lineDriven (seats : List Seat) (k : Nat) : Bool := ((seats[k / 2]?).map fun q => q.state != .unused).getD false

/-- R99: a sample joins the open window of a line, first sample highest. -/
def Line.sample (drive returned : Bool) (l : Line) : Line :=
  { l with
    drive := drive
    driveWord := (l.driveWord <<< 1) ||| (BitVec.ofBool drive).setWidth 16
    returnWord := (l.returnWord <<< 1) ||| (BitVec.ofBool returned).setWidth 16 }

/-- R99: one sample of every driven line. -/
def takeSample (returns : BitVec 12) (s : State) : State :=
  let m := s.restraint
  { s with restraint := { m with
      n := m.n + 1
      fill := if m.n % 16 = 0 then 1 else m.fill + 1
      lines := m.lines.zipIdx.map fun (l, k) =>
        if lineDriven m.seats k then l.sample (driveBit s.settings k m.n) (returns.getLsbD k) else { l with drive := false } } }

/-- LINE_TEST_SAMPLE (R99): while the generators run. -/
def execLineTestSample (returns : BitVec 12) (s : State) : Host.Outcome State Fault Refusal :=
  .next (if s.restraint.running then takeSample returns s else s)

/-! ## Windows (R102, R103) -/

/-- R102: the judgement of a window from its drive and return samples. -/
def judgeWindow (drive returned : Half) : LineJudgement :=
  if returned = 0 then .opened else if returned = drive then .closed else .mismatch

/-- R102, R103: a line at the end of its window. -/
def Line.judge (l : Line) : Line :=
  match judgeWindow l.driveWord l.returnWord with
  | .mismatch =>
    { l with
      judgement := some .mismatch, mismatches := min 255 (l.mismatches + 1)
      capture := some (l.capture.getD (l.driveWord, l.returnWord)) }
  | .closed => { l with judgement := some .closed }
  | .opened => { l with judgement := some .opened }

/-! ## Readings (R104) -/

/-- Table 6.4, with LOCKED split by the lock position minimum. -/
inductive Reading where
  | lockedHigh | lockedLow | unlocked | disagree | mismatch
  deriving DecidableEq, Repr

/-- R104: a seat's reading from its lines' judgements and its position code. -/
def readingOf (minimum code : Nat) (a b : LineJudgement) : Reading :=
  match a, b with
  | .mismatch, _ => .mismatch
  | _, .mismatch => .mismatch
  | .closed, .opened => if minimum ≤ code then .lockedHigh else .lockedLow
  | .opened, .closed => .unlocked
  | .closed, .closed => .disagree
  | .opened, .opened => .disagree

/-- R104: the reading moves the fault runs. -/
def Seat.runs (r : Reading) (q : Seat) : Seat :=
  match r with
  | .disagree => { q with disagreeRun := q.disagreeRun + 1, mismatchRun := 0, lowRun := 0 }
  | .mismatch => { q with disagreeRun := 0, mismatchRun := q.mismatchRun + 1, lowRun := 0 }
  | .lockedLow => { q with disagreeRun := 0, mismatchRun := 0, lowRun := q.lowRun + 1 }
  | .lockedHigh | .unlocked => { q with disagreeRun := 0, mismatchRun := 0, lowRun := 0 }

/-- R105: a fault run has reached 3. -/
def Seat.runOut (q : Seat) : Bool := 3 ≤ q.disagreeRun || 3 ≤ q.mismatchRun || 3 ≤ q.lowRun

/-- R105: entry to FAULT. -/
def Seat.toFault (q : Seat) : Seat :=
  { q with
    state := .fault, disagreeRun := 0, mismatchRun := 0, lowRun := 0, verifyRun := 0, reference := none
    releaseCheck := false, solenoid := false, pulse := none }

/-! ## Seat states (Table 6.5) -/

/-- R106: a LOCKED seat at a reading. -/
def lockedStep (c : Settings) (r : Reading) (code : Nat) (q : Seat) : Seat :=
  match r with
  | .lockedHigh =>
    match c.testMode with
    | .off => { q with verifyRun := min Config.maxVerifyRun (q.verifyRun + 1) }
    | .lfsr | .fixed =>
      if c.verifyTime ≤ 16 * (q.verifyRun + 1) then
        { q with state := .verified, verifyRun := q.verifyRun + 1, reference := some code }
      else { q with verifyRun := q.verifyRun + 1 }
  | .unlocked => { q with state := .opened, verifyRun := 0 }
  | .lockedLow | .disagree | .mismatch => { q with verifyRun := 0 }

/-- Table 6.5: a seat whose fault runs have not run out. R114 for UNLOCKING with its solenoid energised, R116 for
UNLOCKING after a withdrawal. -/
def stateStep (c : Settings) (r : Reading) (code : Nat) (q : Seat) : Seat :=
  match q.state with
  | .opened => if r = .lockedHigh then { q with state := .locked, verifyRun := 1 } else q
  | .locked => lockedStep c r code q
  | .verified => if r = .unlocked then { q with state := .opened, reference := none, verifyRun := 0 } else q
  | .unlocking =>
    if q.solenoid then
      if r = .unlocked then { q with state := .opened, solenoid := false, pulse := none } else q
    else if r = .lockedHigh then { q with state := .locked, verifyRun := 1 }
    else { q with state := .opened }
  | .unused | .fault => q

/-- R109: the window that decides a seat freed from FAULT. -/
def releaseStepSeat (r : Reading) (q : Seat) : Seat :=
  match r with
  | .lockedHigh => { q with state := .locked, verifyRun := 1, releaseCheck := false }
  | .unlocked => { q with state := .opened, releaseCheck := false }
  | .lockedLow | .disagree | .mismatch => q.toFault

/-- R104 to R109: a used seat's state after a window with this reading. -/
def seatStep (c : Settings) (r : Reading) (code : Nat) (q0 : Seat) : Seat :=
  let q := { q0 with code := some code }
  if q.state = .unused then q0
  else if q.state = .fault then q
  else if q.releaseCheck then releaseStepSeat r q
  else
    let t := q.runs r
    if t.runOut then t.toFault else stateStep c r code t

/-- R108: whether a seat creeps after a window; a seat that is not VERIFIED does not. -/
def creepAfter (limit code : Nat) (q : Seat) : Bool :=
  match q.state, q.reference with
  | .verified, some reference => decide (code + limit < reference)
  | _, _ => false

/-- R108: the BAR_CREEP event of a seat starts or ends with its creep mark. -/
def creepEvent (seat : Nat) (before after : Bool) (s : State) : State :=
  if before = after then s
  else if after then startDuration (.barCreep seat) s
  else endDuration (.barCreep seat) s

/-- The MISMATCH windows among the lines of a seat, as LINE_MISMATCH events (R103). -/
def mismatchEvents (a b : LineJudgement) (s : State) : State :=
  let s1 := if a = .mismatch then tally .lineMismatch 1 s else s
  if b = .mismatch then tally .lineMismatch 1 s1 else s1

/-- A change of one seat. -/
def setSeat (i : Nat) (q : Seat) (s : State) : State :=
  { s with restraint := { s.restraint with seats := s.restraint.seats.set i q } }

/-- R111, R112: what the change of a seat's state latches: RESTRAINT_FAULT at each entry into FAULT, RESTRAINT_OPEN when
a VERIFIED seat opens while the vehicle moves. -/
def seatOccurrences (moving : Bool) (before after : SeatState) (s : State) : State :=
  if before ≠ .fault ∧ after = .fault then latch 15 s
  else if before = .verified ∧ after = .opened ∧ moving then latch 14 s
  else s

/-- R104 to R109: a seat after a window in which its lines ended so. -/
def seatAfter (c : Settings) (code : Nat) (la lb : Line) (q : Seat) : Seat :=
  let t := seatStep c (readingOf c.lockMinimum code (judgeWindow la.driveWord la.returnWord)
    (judgeWindow lb.driveWord lb.returnWord)) code q
  { t with creep := creepAfter c.creepLimit code t }

/-- The seats after a window. -/
def seatsAfter (c : Settings) (positions : List Byte) (lines : List Line) (seats : List Seat) : List Seat :=
  seats.zipIdx.map fun (q, i) =>
    match lines[2 * i]?, lines[2 * i + 1]? with
    | some la, some lb => if q.state = .unused then q else seatAfter c (byteAt positions i) la lb q
    | _, _ => q

/-- R99, R102, R103: the lines of used seats after a window. -/
def linesAfter (seats : List Seat) (lines : List Line) : List Line :=
  lines.zipIdx.map fun (l, k) => if lineDriven seats k then l.judge else l

/-- R99, R102 to R109: what a window end writes: every line of a used seat, every used seat, and the next window opens. -/
def judgeSeats (positions : List Byte) (s : State) : State :=
  { s with restraint := { s.restraint with
      fill := 0
      lines := linesAfter s.restraint.seats s.restraint.lines
      seats := seatsAfter s.settings positions s.restraint.lines s.restraint.seats } }

/-- R103, R108, R111, R112: what one used seat reports of a window: its MISMATCH windows, its BAR_CREEP event, and what
its change of state latches. `before` is the monitor before the window's end. -/
def seatReport (moving : Bool) (positions : List Byte) (c : Settings) (before : Restraint) (s : State) (i : Nat) : State :=
  match before.seats[i]?, before.lines[2 * i]?, before.lines[2 * i + 1]? with
  | some q, some la, some lb =>
    if q.state = .unused then s
    else
      let after := seatAfter c (byteAt positions i) la lb q
      let s1 := mismatchEvents (judgeWindow la.driveWord la.returnWord) (judgeWindow lb.driveWord lb.returnWord) s
      seatOccurrences moving q.state after.state (creepEvent (i + 1) q.creep after.creep s1)
  | _, _, _ => s

/-- R99: a window ends: the lines and seats are judged as they stood, and the reports follow, the seats in ascending
number. The motion state used by R111 is the one before it. What they latch acts on the motion state before the summary's
change is judged (R54, R110; log 49). -/
def windowEnd (positions : List Byte) (s : State) : State :=
  (List.range 6).foldl (seatReport s.motion.state.moving positions s.settings s.restraint) (judgeSeats positions s)

/-- WINDOW_END (R99): when the open window holds its sixteen samples. -/
def execWindowEnd (positions : List Byte) (s : State) : Host.Outcome State Fault Refusal :=
  .next (if s.restraint.running && s.restraint.fill = 16 then settle (windowEnd positions s) else s)

/-! ## UNLOCK (R113 to R115) -/

/-- R113: the first of UNLOCK's checks that fails. -/
def unlockRefusal (s : State) : Option RefusalReason :=
  if s.motion.state ≠ .parked then some .wrongState
  else if 0 < s.speed then some .moving
  else if !s.inStation then some .notAtStation
  else none

/-- R114: a seat enters UNLOCKING. -/
def Seat.unlock (expiry : Nat) (q : Seat) : Seat :=
  { q with state := .unlocking, solenoid := true, pulse := some expiry, verifyRun := 0, reference := none, creep := false }

/-- R113: one named seat: LOCKED or VERIFIED enters UNLOCKING, any other is passed over. -/
def unlockSeat (named : Byte) (s : State) (i : Nat) : State :=
  match s.restraint.seats[i]? with
  | none => s
  | some q =>
    if named.getLsbD i && (q.state = .locked || q.state = .verified) then
      endDuration (.barCreep (i + 1)) (setSeat i (q.unlock (s.now + s.settings.unlockPulse)) s)
    else s

/-- R113: the owner's judgement of an UNLOCK. Bits 6 and 7 of the seat set are ignored (R188). -/
def ownUnlock (source : Nat) (seats : Byte) (s : State) : State :=
  match unlockRefusal s with
  | some reason => refuse .unlock reason source s
  | none => (List.range 6).foldl (unlockSeat seats) s

/-- UNLOCK (R113). -/
def execUnlock (source target : Nat) (seats : Byte) (s : State) : Host.Outcome State Fault Refusal :=
  .next (settle (commandRow .unlock source target (ownUnlock source seats) s))

/-- R115: a seat still in UNLOCKING at its pulse expiry enters LOCKED, its solenoid off. -/
def Seat.pulseEnd (q : Seat) : Seat := { q with state := .locked, verifyRun := 0, solenoid := false, pulse := none }

/-- UNLOCK_PULSE_EXPIRY (R115): the pulse of seat 1–6 has run; a seat still UNLOCKING latches UNLOCK_FAIL. -/
def execUnlockPulseExpiry (seat : Nat) (s : State) : Host.Outcome State Fault Refusal :=
  .next (match (if seat = 0 then none else s.restraint.seats[seat - 1]?) with
    | none => s
    | some q =>
      match q.state, q.pulse with
      | .unlocking, some t => if t ≤ s.now then settle (latch 16 (setSeat (seat - 1) q.pulseEnd s)) else s
      | _, _ => s)

/-! ## Diagnostics and resets (R109, R117, R119, R120) -/

/-- R117: every mismatch counter is 0 and every capture empty. -/
def clearDiagnostics (s : State) : State :=
  { s with restraint := { s.restraint with
      lines := s.restraint.lines.map fun l => { l with mismatches := 0, capture := none } } }

/-- R109: every seat in FAULT enters OPEN with release check yes. -/
def freeSeats (s : State) : State :=
  { s with restraint := { s.restraint with
      seats := s.restraint.seats.map fun q =>
        if q.state = .fault then { q with state := .opened, releaseCheck := true } else q } }

/-- R120: the monitor at a show restart: as at a full reset, but the mismatch counters and captures are kept. -/
def restraintRestart (s : State) : State :=
  { s with restraint := { Restraint.reset with
      lines := s.restraint.lines.map fun l => { Line.reset with mismatches := l.mismatches, capture := l.capture } } }

/-- R119, R120: at the end of the image load seats beyond the seat count become UNUSED and the generators restart. -/
def restraintLoaded (s : State) : State :=
  { s with restraint := { s.restraint with
      running := true, n := 0, fill := 0
      seats := s.restraint.seats.zipIdx.map fun (q, i) => if s.settings.seatCount ≤ i then { q with state := .unused } else q } }

end Sys2Proof.Machine
end

