-- ==== Sys2Proof/Machine/ConditionControl.lean ====
section
/-! DEFINITION. The Condition Unit's commands: CLEAR (R129 to R132, R141), STOP_RIDE and STOP_ZONE (R95), and
DURATION_THRESHOLD (R137). -/
namespace Sys2Proof.Machine

/-! ## CLEAR -/

/-- R141: a counter is reset to its preset; a chained counter's armed mark goes with it. -/
def Counter.resetTally (c : Counter) : Counter :=
  { c with value := c.preset, tripped := false, armed := c.armed && !c.chained }

/-- R141: the reset-tallies option. -/
def resetTallies (s : State) : State :=
  { s with cond := { s.cond with counters := s.cond.counters.map Counter.resetTally, frozen := false } }

/-- R134: the release option. -/
def releaseFirstFault (s : State) : State := { s with cond := { s.cond with firstFault := none } }

/-- R130: a named condition is cleared. -/
def Condition.clear (c : Condition) : Condition :=
  { c with
    latched := false, remaining := c.count, escalated := false
    announcement := if c.announcement = .counting then .uncounted else c.announcement }

/-- R188: a CLEAR's condition set names id n by bit n, for ids 1–25. -/
def namedIds (conditions : BitVec 32) : List Nat := (List.range 26).filter fun id => 1 ≤ id && conditions.getLsbD id

/-- R129: steps 1 to 5. -/
def clearSteps (conditions : BitVec 32) (options : Byte) (s : State) : State :=
  let s1 := if options.getLsbD 0 then releaseFirstFault s else s
  let s2 := if options.getLsbD 1 then resetTallies s1 else s1
  let s3 := if options.getLsbD 2 then clearDiagnostics s2 else s2
  let s4 := if conditions.getLsbD 15 then freeSeats s3 else s3
  (namedIds conditions).foldl (fun a id => onRecord id Condition.clear a) s4

/-- R131: one named condition is latched again when its persistent cause holds; the level is held back. -/
def relatch (s : State) (id : Nat) : State := if s.cause id then latchHeld id s else s

/-- R129: the seven steps of a CLEAR. -/
def ownClear (conditions : BitVec 32) (options : Byte) (s : State) : State :=
  handLevel ((namedIds conditions).foldl relatch (clearSteps conditions options s))

/-- CLEAR (R129). -/
def execClear (source target : Nat) (conditions : BitVec 32) (options : Byte) (s : State) :
    Host.Outcome State Fault Refusal :=
  .next (settle (commandRow .clear source target (ownClear conditions options) s))

/-! ## STOP (R95) -/

/-- R95: scope RIDE latches RIDE_STOP. -/
def ownStopRide (s : State) : State := latch 11 s

/-- R95: scope ZONE latches ZONE_STOP when the claim list holds an entry for the zone, in either stage. -/
def ownStopZone (zone : Nat) (s : State) : State :=
  if s.claims.any (fun c => c.zone = zone) then latch 12 s else s

/-- STOP_RIDE (R95). STOP carries no target. -/
def execStopRide (source : Nat) (s : State) : Host.Outcome State Fault Refusal :=
  .next (settle (commandRow .stop source 0 ownStopRide s))

/-- STOP_ZONE (R95). -/
def execStopZone (source zone : Nat) (s : State) : Host.Outcome State Fault Refusal :=
  .next (settle (commandRow .stop source 0 (ownStopZone zone) s))

/-! ## Duration thresholds (R137) -/

/-- The tally event of a running duration event (Table 7.6). -/
def durationEvent : DurationKey → TallyEvent
  | .holdLong => .holdLong
  | .backoffLong => .backoffLong
  | .barCreep _ => .barCreep

/-- The running event of a key. -/
def State.duration (s : State) (key : DurationKey) : Option Duration := s.cond.durations.find? fun d => d.key = key

/-- R137: a counter's threshold is passed by a running event for the first time: the counter selects the event's kind,
its mark is not set, and the duration has come to the threshold times 4 ms (log 23). -/
def thresholdDue (s : State) (d : Duration) (counter : Nat) : Bool :=
  match s.cond.counters[counter - 1]? with
  | none => false
  | some c =>
    1 ≤ counter && c.event = durationEvent d.key && !d.passed.getD (counter - 1) true
      && decide (4 * c.threshold ≤ s.now - d.start)

/-- R137: the mark of a counter is set on a running event. -/
def markPassed (key : DurationKey) (counter : Nat) (s : State) : State :=
  { s with cond := { s.cond with
      durations := s.cond.durations.map fun d =>
        if d.key = key then { d with passed := d.passed.set (counter - 1) true } else d } }

/-- R137: one arrival of amount 1 is offered to one counter. -/
def offerThreshold (key : DurationKey) (counter : Nat) (s : State) : State :=
  latchTrips (tallyCore (fun k => k = counter) (durationEvent key) 1 (markPassed key counter s))

/-- DURATION_THRESHOLD (R137): a running event passes a counter's threshold. -/
def execDurationThreshold (key : DurationKey) (counter : Nat) (s : State) : Host.Outcome State Fault Refusal :=
  .next (match s.duration key with
    | none => s
    | some d => if thresholdDue s d counter then settle (offerThreshold key counter s) else s)

end Sys2Proof.Machine
end

