-- ==== Sys2Proof/Machine/Tracker.lean ====
section
/-! DEFINITION. The Position Tracker's own computations: moves (R37), markers (R39 to R44), berth and lap (R46 to R49).
Positions are in µm on the loop of 1000 × L. -/
namespace Sys2Proof.Machine

/-- The kind of a position change (R45). Confidence changes only at a miss, a match or a fix, each within a move or the
initial fix; the model hands such a change on with the change of its move and has no kind 'confidence only' (log 38). -/
inductive ChangeKind where
  | advance | forwardMatch | backwardMatch | jump | fix | initialFix
  deriving DecidableEq, Repr

/-- A position change as it is handed on (R45). `span` is the actual span of a forward move, as the old position and
the length; `ground` is its new ground in the same form; `oldZone` is the front's zone before the change. -/
structure PosChange where
  kind : ChangeKind
  span : Option (Nat × Nat)
  ground : Option (Nat × Nat)
  code : Option Nat
  oldZone : Option Nat
  arrival : Bool
  deriving DecidableEq, Repr

/-- The loop of the route in µm. -/
def Route.loop (r : Route) : Nat := 1000 * r.len

/-! ## Berth (R46 to R49) -/

/-- R46: the depth of a position in the station zone, µm from its entry. -/
def Route.depth (r : Route) (pos : Nat) : Nat := ahead r.loop (1000 * (r.entry r.stationZone).getD 0) pos

/-- The front at this position is inside the station zone. -/
def Route.inStationAt (r : Route) (pos : Nat) : Bool := r.zoneAt (pos / 1000) = r.stationZone

/-- R49: the front is in the station zone within the berth tolerance of the berth point on either side. -/
def Route.inBand (r : Route) (tolerance pos : Nat) : Bool :=
  let d := r.depth pos / 1000
  r.inStationAt pos && r.berthDepth ≤ d + tolerance && d ≤ r.berthDepth + tolerance

/-- The depth in mm, counted on from the station entry without wrapping, lies deeper than the berth plus the
tolerance. -/
def Route.beyondBerth (r : Route) (tolerance depth : Nat) : Bool := r.berthDepth + tolerance < depth / 1000

/-- R46: the berth distance of an armed front at this position. -/
def Route.berthDistance (r : Route) (pos : Nat) : Nat := r.berthDepth - r.depth pos / 1000

/-- R47, R48, R49: arming, overshoot and at berth at a forward move of f from p, in route order: an armed front that is
carried deeper than the berth plus the tolerance overshoots; the station entry in the span arms; the front so armed
may overshoot in the same move. `mayArm` is no for a fix into the berth band (R49). The overshoots are given back. -/
def berthForward (r : Route) (tolerance p f : Nat) (mayArm : Bool) (t : Tracker) : Tracker × Bool :=
  let entry := 1000 * (r.entry r.stationZone).getD 0
  let over1 := t.armed && r.beyondBerth tolerance (r.depth p + f)
  let armed1 := t.armed && !over1
  let toEntry := if ahead r.loop p entry = 0 then r.loop else ahead r.loop p entry
  let crosses := mayArm && (r.entry r.stationZone).isSome && spanHas r.loop p f entry
  let over2 := crosses && r.beyondBerth tolerance (f - toEntry)
  ({ t with
      armed := (armed1 || crosses) && !over2
      atBerth := t.atBerth && !r.beyondBerth tolerance (r.depth p + f) },
    over1 || over2)

/-- R48: arrival is found when the berth is armed, Fb is at most the tolerance and the measured speed is 0. -/
def arrives (r : Route) (tolerance speed : Nat) (t : Tracker) : Bool :=
  t.armed && r.berthDistance t.pos ≤ tolerance && speed = 0

/-- R48: the tracker's effects of an arrival. -/
def Tracker.arrive (t : Tracker) : Tracker := { t with lap := t.lap + 1, armed := false, atBerth := true }

/-- R45, R46, R48: the berth distance handed on with a change: that of an armed front; 0 with an overshoot. A move that
overshoots one arming and makes another hands on the new arming's (log 14). -/
def berthHanded (r : Route) (overshoot : Bool) (t : Tracker) : Option Nat :=
  if t.armed then some (r.berthDistance t.pos) else if overshoot then some 0 else none

/-! ## Moves (R37) -/

/-- R37: a forward move of f µm: position and retrace. -/
def Tracker.forward (r : Route) (f : Nat) (t : Tracker) : Tracker :=
  { t with pos := (t.pos + f) % r.loop, retrace := t.retrace - f }

/-- R37: the new ground of a forward move of f µm: what lies beyond the retrace. -/
def Tracker.newGround (r : Route) (f : Nat) (t : Tracker) : Option (Nat × Nat) :=
  if t.retrace < f then some ((t.pos + t.retrace) % r.loop, f - t.retrace) else none

/-- R37: a backward move of b µm: the retrace grows by b, saturating at 500 × L. -/
def Tracker.backward (r : Route) (b : Nat) (t : Tracker) : Tracker :=
  { t with pos := (t.pos + (r.loop - b % r.loop)) % r.loop, retrace := min (500 * r.len) (t.retrace + b) }

/-! ## Misses (R43) -/

/-- R43: the expected markers that a forward move of f passes by more than 150 mm, one after the other. Each is a
MARKER_MISS event; the third in a row sets LOST and latches MARKER_LOST. -/
def missLoop (r : Route) (f : Nat) : Nat → Tracker → List Report → Tracker × List Report
  | 0, t, rs => (t, rs)
  | n + 1, t, rs =>
    match t.expected with
    | none => (t, rs)
    | some m =>
      if f ≤ t.missIn then ({ t with missIn := t.missIn - f }, rs)
      else if 3 ≤ t.misses + 1 then
        ({ t with misses := 3, conf := .lost, expected := none, missIn := 0, atBerth := false },
          rs ++ [.tally .markerMiss, .latch 7])
      else
        let next := r.markerAfter m
        missLoop r f n
          { t with misses := t.misses + 1, conf := .reckoning, expected := next,
                   missIn := t.missIn + (next.map (r.markerGap m)).getD 0 }
          (rs ++ [.tally .markerMiss])

/-- R40 to R42, R44: a marker report is accepted at the marker of this code: confidence GOOD, misses 0, the expected
marker the next, the lateral offset clamped to ±200 mm, the distance since marker 0. -/
def Tracker.accept (r : Route) (code : Nat) (lateral : Int) (t : Tracker) : Tracker :=
  let next := r.markerAfter code
  { t with
    conf := .good, misses := 0, expected := next
    missIn := (next.map (r.markerGap code)).getD 0 + Config.markerWindow
    lateral := clampInt (-200) 200 lateral, since := 0 }

/-! ## Whole changes -/

/-- What a tracker event gives: the tracker after it, the reports to the Condition Unit in order, the change. -/
structure TrackerResult where
  tracker : Tracker
  reports : List Report
  change : PosChange
  deriving DecidableEq, Repr

/-- The end of a change: the arrival check (R48), the berth distance handed on, and the overshoot report. -/
def finishChange (r : Route) (tolerance speed : Nat) (overshoot : Bool) (reports : List Report) (ch : PosChange)
    (t : Tracker) : TrackerResult :=
  let arrival := arrives r tolerance speed t
  let t1 := if arrival then t.arrive else t
  { tracker := { t1 with fb := berthHanded r overshoot t1 }
    reports := reports ++ (if overshoot then [.latch 24] else [])
    change := { ch with arrival := arrival } }

/-- The zone of the front before a change, unknown in UNFIXED. -/
def Tracker.zoneIn (r : Route) (t : Tracker) : Option Nat :=
  if t.conf = .unfixed then none else some (r.zoneAt (t.pos / 1000))

/-- R43: the misses of an advance of a µm: they are counted in GOOD and RECKONING. -/
def advanceMisses (r : Route) (a : Nat) (t : Tracker) : Tracker × List Report :=
  if t.conf = .good || t.conf = .reckoning then missLoop r a 4 (t.forward r a) [] else (t.forward r a, [])

/-- R36, R37: an advance of a µm applied as a forward move, with its misses (R43; their changes of confidence go with this
change, log 38) and its berth rules. An advance of 0 µm changes nothing: it has no span and no ground, and only the check
of R48 and the handing on of the berth distance are made (log 42). -/
def advanceResult (r : Route) (tolerance speed a : Nat) (t : Tracker) : TrackerResult :=
  let still : PosChange :=
    { kind := .advance, span := none, ground := none, code := none, oldZone := t.zoneIn r, arrival := false }
  if a = 0 then finishChange r tolerance speed false [] still (t.forward r a)
  else
    let missed := advanceMisses r a t
    let berth := berthForward r tolerance t.pos a true missed.1
    finishChange r tolerance speed berth.2 missed.2
      { still with span := some (t.pos, a), ground := t.newGround r a } berth.1

/-- R41, R42: the correction at the expected marker, at route position m µm. -/
def correctionResult (r : Route) (tolerance speed code : Nat) (lateral : Int) (m : Nat) (t : Tracker) : TrackerResult :=
  let behind := ahead r.loop m t.pos
  let f := ahead r.loop t.pos m
  if behind ≤ Config.markerWindow then
    let moved := (t.backward r behind).accept r code lateral
    let inside := r.inStationAt moved.pos
    finishChange r tolerance speed false []
      { kind := .backwardMatch, span := none, ground := none, code := some code, oldZone := t.zoneIn r, arrival := false }
      { moved with armed := moved.armed && (behind = 0 || inside), atBerth := moved.atBerth && r.inBand tolerance moved.pos }
  else
    let jump := decide (Config.markerWindow < f)
    let moved := (t.forward r f).accept r code lateral
    let berth := berthForward r tolerance t.pos f true moved
    finishChange r tolerance speed berth.2 (if jump then [.latch 6] else [])
      { kind := if jump then .jump else .forwardMatch, span := some (t.pos, f), ground := t.newGround r f,
        code := some code, oldZone := t.zoneIn r, arrival := false }
      { berth.1 with atBerth := berth.1.atBerth && r.inBand tolerance moved.pos }

/-- R47: whether a fix arms the berth: the front was not known to be in the station zone, is placed in it, and the
berth depth exceeds its depth by more than the tolerance. -/
def fixArms (r : Route) (tolerance : Nat) (before : Option Nat) (pos : Nat) : Bool :=
  before != some r.stationZone && r.inStationAt pos && r.depth pos / 1000 + tolerance < r.berthDepth

/-- R40, R47, R49: a fix at route position m µm. From UNFIXED it is no move; from LOST it is the shorter move. A fix into
the berth band does not itself arm and is itself no arrival (R49); a berth that was armed before it and stays armed is
checked for arrival after the fix like after every other (R48; log 37). -/
def fixResult (r : Route) (tolerance speed code : Nat) (lateral : Int) (m : Nat) (t : Tracker) : TrackerResult :=
  let before := t.zoneIn r
  let band := r.inBand tolerance m
  let settleBerth := fun (q : Tracker) =>
    { q with
      armed := (q.armed && r.inStationAt m) || fixArms r tolerance before m
      atBerth := band }
  if t.conf = .unfixed then
    finishChange r tolerance speed false []
      { kind := .initialFix, span := none, ground := none, code := some code, oldZone := before, arrival := false }
      (settleBerth ({ t with pos := m, retrace := 0 }.accept r code lateral))
  else
    let f := ahead r.loop t.pos m
    if f ≤ 500 * r.len then
      let moved := (t.forward r f).accept r code lateral
      let berth := berthForward r tolerance t.pos f (!band) moved
      finishChange r tolerance speed berth.2 []
        { kind := .fix, span := some (t.pos, f), ground := t.newGround r f, code := some code, oldZone := before,
          arrival := false }
        (settleBerth berth.1)
    else
      let moved := (t.backward r (r.loop - f)).accept r code lateral
      finishChange r tolerance speed false []
        { kind := .fix, span := none, ground := none, code := some code, oldZone := before, arrival := false }
        (settleBerth moved)

end Sys2Proof.Machine
end

