-- ==== Sys2Proof/Machine/Claims.lean ====
section
/-! DEFINITION. The Zone Claim Unit: the four steps of a position change (R81 to R87), evaluations (R88 to R94), and
the command CLAIM_INTERVAL_EVALUATION. Positions here are in mm (R45). -/
namespace Sys2Proof.Machine

/-! ## Path order (R80) -/

/-- R80: the key of a claimed zone, the distance ahead from the tail to the zone's end. -/
def claimKey (r : Route) (tail : Nat) (c : Claim) : Nat :=
  match r.zoneEnd c.zone with
  | none => 0
  | some e => ahead r.len tail e

/-- R80: the list in path order. -/
def pathOrder (r : Route) (tail : Nat) (cs : List Claim) : List Claim := sortByKey (claimKey r tail) cs

/-! ## The four steps -/

/-- R82: the zone's end lies within the tail's forward span. -/
def releasedBy (r : Route) (bodyLength : Nat) (span : Option (Nat × Nat)) (c : Claim) : Bool :=
  match span, r.zoneEnd c.zone with
  | some (p, f), some e => spanHas r.loop ((p + (r.loop - (1000 * bodyLength) % r.loop)) % r.loop) f (1000 * e)
  | _, _ => false

/-- R82: the release step: the list left, and the zones released in route order from the old tail. -/
def releaseStep (r : Route) (bodyLength : Nat) (span : Option (Nat × Nat)) (cs : List Claim) :
    List Claim × List Nat :=
  let oldTail := match span with
    | none => 0
    | some (p, _) => ((p + (r.loop - (1000 * bodyLength) % r.loop)) % r.loop) / 1000
  (cs.filter fun c => !releasedBy r bodyLength span c,
    (pathOrder r oldTail (cs.filter (releasedBy r bodyLength span))).map Claim.zone)

/-- R83: the withdrawal step: an entry stays when the vehicle occupies its zone or its zone is the next ahead. -/
def withdrawStep (r : Route) (bodyLength front : Nat) (cs : List Claim) : List Claim :=
  cs.filter fun c => r.occupied bodyLength front c.zone || (r.nextEntry front).any fun e => e.1 = c.zone

/-- R84: the zones the entry step judges: the front's zone, then in route order those whose entry lies within the
front's forward span and which the vehicle still occupies. -/
def entryZones (r : Route) (bodyLength front : Nat) (span : Option (Nat × Nat)) : List Nat :=
  let here := r.zoneAt front
  let first := if here = 255 then [] else [here]
  match span with
  | none => first
  | some (p, f) =>
    let crossed := (List.range r.segments.length).filterMap fun i =>
      let z := r.zoneOf i
      if z != 255 && z != here && r.entry z = some (r.startOf i) && spanHas r.loop p f (1000 * r.startOf i)
          && r.occupied bodyLength front z then some (ahead r.loop p (1000 * r.startOf i), z) else none
    first ++ (sortByKey Prod.fst crossed).map Prod.snd

/-- R85: the entry dropped from a full list: the first in path order from the new tail other than the front's zone. -/
def dropFirst (r : Route) (tail frontZone : Nat) (cs : List Claim) : List Claim × List Nat :=
  match pathOrder r tail (cs.filter fun c => c.zone != frontZone) with
  | [] => (cs, [])
  | d :: _ => (cs.filter fun c => c.zone != d.zone, [d.zone])

/-- R85: a list with room for a forced entry, and the zone dropped for it. -/
def makeRoom (r : Route) (tail frontZone : Nat) (cs : List Claim) : List Claim × List Nat :=
  if Config.claimCap ≤ cs.length then dropFirst r tail frontZone cs else (cs, [])

/-- The entry of a list for a zone. -/
def claimOf (cs : List Claim) (z : Nat) : Option Claim := cs.find? fun c => c.zone = z

/-- R84, R85: the list after the entry step has judged one zone: HELD, with conflict mark no. -/
def entryList (r : Route) (tail frontZone : Nat) (cs : List Claim) (z : Nat) : List Claim :=
  match claimOf cs z with
  | some c =>
    match c.stage with
    | .held => cs.map fun q => if q.zone = z then { q with mark := false } else q
    | .intent => cs.map fun q => if q.zone = z then { q with stage := .held, since := none, mark := false } else q
  | none => (makeRoom r tail frontZone cs).1 ++ [{ zone := z, stage := .held, since := none, mark := false }]

/-- R87: the intent placement step. -/
def placeIntent (r : Route) (claimDistance now front : Nat) (cs : List Claim) : List Claim :=
  match r.nextEntry front with
  | none => cs
  | some (z, d) =>
    if cs.any (fun c => c.zone = z) || claimDistance < d || Config.claimCap ≤ cs.length then cs
    else cs ++ [{ zone := z, stage := .intent, since := some now, mark := false }]

/-- R81: the list after the four steps of a position change and path order, from the list before them. -/
def claimsAfter (r : Route) (span : Option (Nat × Nat)) (c : Settings) (now front : Nat) (cs : List Claim) : List Claim :=
  let tail := r.tailOf c.bodyLength front
  let kept := withdrawStep r c.bodyLength front (releaseStep r c.bodyLength span cs).1
  let entered := (entryZones r c.bodyLength front span).foldl (entryList r tail (r.zoneAt front)) kept
  pathOrder r tail (placeIntent r c.claimDistance now front entered)

/-! ## The fleet's claims (R89, R90) -/

/-- R89: a peer's list shows the zone HELD. -/
def showsHeld (p : Peer) (z : Nat) : Bool := (bodyClaims p.body).any fun c => c.1 = z && c.2

/-- R89: a peer's list shows the zone INTENT, and not HELD. -/
def showsIntent (p : Peer) (z : Nat) : Bool := (bodyClaims p.body).any (fun c => c.1 = z && !c.2) && !showsHeld p z

/-- R90: a counted peer at route position q has precedence over the part for zone z. -/
def precedes (r : Route) (bodyLength own front z address q : Nat) : Bool :=
  match r.entry z with
  | none => false
  | some e =>
    r.zoneAt q = z || r.zoneAt (r.tailOf bodyLength q) = z || ahead r.len q e < ahead r.len front e
      || (ahead r.len q e = ahead r.len front e && address < own)

/-- R89: H, the counted peers whose list shows z HELD. -/
def heldCount (s : State) (z : Nat) : Nat := (s.countedPeers.filter fun p => showsHeld p.2.1 z).length

/-- R89: I, the counted peers whose list shows z INTENT and which have precedence. -/
def intentCount (s : State) (r : Route) (z : Nat) : Nat :=
  (s.countedPeers.filter fun p =>
    showsIntent p.2.1 z && precedes r s.settings.bodyLength s.link.ownAddress s.front z p.1 p.2.2).length

/-- R92: Hp, the counted peers whose list shows z HELD and which have precedence. -/
def heldPrecedingCount (s : State) (r : Route) (z : Nat) : Nat :=
  (s.countedPeers.filter fun p =>
    showsHeld p.2.1 z && precedes r s.settings.bodyLength s.link.ownAddress s.front z p.1 p.2.2).length

/-! ## The position change (R81, R86) -/

/-- R86: the zones of the initial fix: the front's and, when it differs, the tail's, without 255. -/
def initialZones (r : Route) (bodyLength front : Nat) : List Nat :=
  let z := r.zoneAt front
  let t := r.zoneAt (r.tailOf bodyLength front)
  (if z = 255 then [] else [z]) ++ (if t = 255 || t = z then [] else [t])

/-- R82: the release step; each release is handed to the Cue Sequencer, in route order (R150). -/
def releaseClaims (r : Route) (ch : PosChange) (s : State) : State :=
  let released := releaseStep r s.settings.bodyLength ch.span s.claims
  released.2.foldl zoneLeave { s with claims := released.1 }

/-- R83: the withdrawal step. -/
def withdrawClaims (r : Route) (s : State) : State :=
  { s with claims := withdrawStep r s.settings.bodyLength s.front s.claims }

/-- R84, R85: one zone is judged by the entry step: a zone HELD already loses its conflict mark; any other is a forced
entry. An entry dropped for it is handed on as a release first, the new one joins, and ZONE_CONFLICT is latched. -/
def enterZone (r : Route) (s : State) (z : Nat) : State :=
  let tail := r.tailOf s.settings.bodyLength s.front
  let entered := entryList r tail (r.zoneAt s.front) s.claims z
  match claimOf s.claims z with
  | some c =>
    match c.stage with
    | .held => { s with claims := entered }
    | .intent => latch 13 { s with claims := entered }
  | none =>
    let room := makeRoom r tail (r.zoneAt s.front) s.claims
    let left := room.2.foldl zoneLeave { s with claims := room.1 }
    latch 13 { left with claims := entered }

/-- R87, R80: the intent placement step, and path order. -/
def placeClaims (r : Route) (s : State) : State :=
  let placed := placeIntent r s.settings.claimDistance s.now s.front s.claims
  { s with claims := pathOrder r (r.tailOf s.settings.bodyLength s.front) placed }

/-- Occurrences of ZONE_CONFLICT, one after the other. -/
def conflicts (n : Nat) (s : State) : State := (List.replicate n ()).foldl (fun a _ => latch 13 a) s

/-- R86: the claims of the initial fix, ZONE_CONFLICT for each zone whose H is at least its capacity, and the intent
placement. -/
def initialClaims (r : Route) (s : State) : State :=
  let zones := initialZones r s.settings.bodyLength s.front
  let tail := r.tailOf s.settings.bodyLength s.front
  let full := (zones.filter fun z => r.capacity z ≤ heldCount s z).length
  let list := s.claims ++ zones.map fun z => ({ zone := z, stage := .held, since := none, mark := false } : Claim)
  conflicts full
    { s with claims := pathOrder r tail (placeIntent r s.settings.claimDistance s.now s.front (pathOrder r tail list)) }

/-- R81: the four steps of a position change, one after the other, each handing on what it does before the next. -/
def movedClaims (r : Route) (ch : PosChange) (s : State) : State :=
  let s1 := withdrawClaims r (releaseClaims r ch s)
  placeClaims r ((entryZones r s.settings.bodyLength s.front ch.span).foldl (enterZone r) s1)

/-- R81, R86: a position change is taken by the Zone Claim Unit. -/
def claimsChange (r : Route) (ch : PosChange) (s : State) : State :=
  if ch.kind = .initialFix then initialClaims r s else movedClaims r ch s

/-! ## Evaluation (R88 to R93) -/

/-- R92: the highest speed from which the part still stops the margin short of the zone's entry. -/
def yieldSpeed (decel margin x : Nat) : Nat := isqrt (2 * decel * (x - margin))

/-- R91, R92, R93: one entry is judged: the entry after, and what it reports. -/
def judgeClaim (r : Route) (s : State) (c : Claim) : Claim × List Report :=
  match c.stage with
  | .intent =>
    if s.settings.settleTime ≤ s.now - c.since.getD s.now
        && heldCount s c.zone + intentCount s r c.zone < r.capacity c.zone && s.level ≤ 4 then
      ({ c with stage := .held, since := none }, [])
    else (c, [])
  | .held =>
    if r.occupied s.settings.bodyLength s.front c.zone then (c, [])
    else if heldPrecedingCount s r c.zone < r.capacity c.zone then ({ c with mark := false }, [])
    else
      let x := match r.entry c.zone with
        | none => 0
        | some e => ahead r.len s.front e
      if s.speed ≤ yieldSpeed s.settings.decel s.settings.margin x then
        ({ c with stage := .intent, since := some s.now, mark := false }, [.tally .zoneYield])
      else if c.mark then (c, [])
      else ({ c with mark := true }, [.latch 13])

/-- R88: an evaluation of every entry of the list, against the state as its owners last left it. -/
def evaluateClaims (s : State) : State :=
  match s.placed with
  | none => s
  | some (r, _) =>
    let judged := s.claims.map (judgeClaim r s)
    reportAll (judged.flatMap Prod.snd) { s with claims := judged.map Prod.fst }

/-- CLAIM_INTERVAL_EVALUATION (R88): at a control interval while the list holds an INTENT entry. -/
def execClaimIntervalEvaluation (s : State) : Host.Outcome State Fault Refusal :=
  .next (settle (if !s.loading && s.claims.any (fun c => c.stage = .intent) then evaluateClaims s else s))

end Sys2Proof.Machine
end

