-- ==== Sys2Proof/Machine/Cues.lean ====
section
/-! DEFINITION. The Cue Sequencer: triggers of a position change (R149), SCENE_TIME watches (R152, R153), actions (R154
to R156), and the commands PENDING_ADVANCE and WATCH_EXPIRY. -/
namespace Sys2Proof.Machine

/-! ## Triggers of a position change (R149) -/

/-- The place of a POSITION or ZONE_ENTER trigger in µm, and whether it comes first at its place (ZONE_ENTER does). -/
def triggerPlace (r : Route) : CueTrigger → Option (Nat × Nat)
  | .zoneEnter z => (r.entry z).map fun e => (1000 * e, 0)
  | .position g o => if g < r.segments.length then some (1000 * (r.startOf g + o), 1) else none
  | .marker _ | .zoneLeave _ | .sceneTime _ _ | .cueDone _ | .motion _ | .invalid => none

/-- R149: the cues whose place lies in the new ground, in route order, ZONE_ENTER before POSITION at one place, and in
cue id order within each. -/
def groundCues (r : Route) (ground : Option (Nat × Nat)) (s : State) : List Nat :=
  match ground with
  | none => []
  | some (p, f) =>
    (sortByKey Prod.fst (s.cues.table.zipIdx.filterMap fun (c, i) =>
      match triggerPlace r c.trigger with
      | none => none
      | some (x, later) =>
        if c.enabled && spanHas r.loop p f x then
          some (2 * (if ahead r.loop p x = 0 then r.loop else ahead r.loop p x) + later, i)
        else none)).map Prod.snd

/-! ## Watches (R152, R153) -/

/-- A change of one cue's entry. -/
def onCue (id : Nat) (f : CueEntry → CueEntry) (s : State) : State :=
  { s with cues := { s.cues with table := updateAt id f s.cues.table } }

/-- R152: the watch ends without an occurrence. -/
def CueEntry.unwatch (c : CueEntry) : CueEntry := { c with watching := false, watchExpiry := none }

/-- R153: the watch's occurrence: it becomes IDLE, and the occurrence is judged by R146. -/
def watchOccurs (id : Nat) (s : State) : State := cueOccur (onCue id CueEntry.unwatch s) id

/-- R153: a WATCHING watch is judged at its start or at a beacon of its scene. -/
def judgeWatch (id scene time : Nat) (s : State) : State :=
  match s.estimate scene with
  | none => onCue id (fun c => { c with watchExpiry := none }) s
  | some e =>
    if sceneReached e time then watchOccurs id s
    else onCue id (fun c => { c with watchExpiry := some (s.now + sceneWait e time) }) s

/-- R152: a watch starts and is judged (R153). -/
def startWatch (id scene time : Nat) (s : State) : State :=
  judgeWatch id scene time (onCue id (fun c => { c with watching := true }) s)

/-- R152: whether a position change brings the front into zone z: new ground that contains the zone's entry, or a fix
that places the front in a zone it was not in. -/
def comesInto (r : Route) (ch : PosChange) (z : Nat) : Bool :=
  (match ch.ground, r.entry z with
    | some (p, f), some e => spanHas r.loop p f (1000 * e)
    | _, _ => false)
  || ((ch.kind = .fix || ch.kind = .initialFix) && ch.oldZone != some z)

/-- R152: a change that may end a watch: a forward move of more than 0 µm, or a fix. A backward match neither starts nor
ends one, and an advance of 0 µm changes nothing (R37). -/
def PosChange.mayEnd (ch : PosChange) : Bool := ch.span.isSome || ch.kind = .fix || ch.kind = .initialFix

/-- R152: one cue's watch at a position change. -/
def watchChange (r : Route) (ch : PosChange) (s : State) (id : Nat) : State :=
  match s.cues.table[id]? with
  | none => s
  | some c =>
    match c.enabled, c.trigger with
    | true, .sceneTime scene time =>
      let inside := (s.governedZone scene).any s.standsIn
      if c.watching then
        if !inside && ch.mayEnd then onCue id CueEntry.unwatch s else s
      else if inside && (s.governedZone scene).any (comesInto r ch) then startWatch id scene time s
      else s
    | _, _ => s

/-- R158: every fired marker is cleared. -/
def clearFired (s : State) : State :=
  { s with cues := { s.cues with table := s.cues.table.map fun c => { c with fired := false } } }

/-- R149: every MARKER trigger for an accepted code occurs. -/
def markerTriggers (code : Option Nat) (s : State) : State :=
  match code with
  | none => s
  | some c => occurWhere (fun t => t = .marker c) s

/-- R149: a position change is taken by the Cue Sequencer: the triggers in the new ground, the accepted marker's, the
watches in cue id order (log 46), and last the clearing of the fired markers at an arrival (R158). -/
def cuesChange (r : Route) (ch : PosChange) (s : State) : State :=
  let s1 := (groundCues r ch.ground s).foldl cueOccur s
  let s2 := markerTriggers ch.code s1
  let s3 := (List.range s2.cues.table.length).foldl (watchChange r ch) s2
  if ch.arrival then clearFired s3 else s3

/-- R152, R153: one cue's watch at an accepted SCENE beacon. `before` is the governed zone of the record before it,
none when the beacon fills the record. -/
def watchBeacon (scene : Nat) (before : Option Nat) (s : State) (id : Nat) : State :=
  match s.cues.table[id]? with
  | none => s
  | some c =>
    match c.enabled, c.trigger with
    | true, .sceneTime a time =>
      if a != scene then s
      else
        let inside := (s.governedZone scene).any s.standsIn
        if c.watching then
          if inside then judgeWatch id scene time s else onCue id CueEntry.unwatch s
        else if inside && before != s.governedZone scene then startWatch id scene time s
        else s
    | _, _ => s

/-- R23: an accepted SCENE beacon is given to the Cue Sequencer, whose watches are judged in cue id order (log 46). -/
def cuesBeacon (scene : Nat) (before : Option Nat) (s : State) : State :=
  (List.range s.cues.table.length).foldl (watchBeacon scene before) s

/-- A change of every enabled SCENE_TIME cue of a scene. -/
def onSceneCues (scene : Nat) (f : CueEntry → CueEntry) (s : State) : State :=
  { s with cues := { s.cues with table := s.cues.table.map fun c =>
      match c.trigger with
      | .sceneTime a _ => if a = scene then f c else c
      | .marker _ | .position _ _ | .zoneEnter _ | .zoneLeave _ | .cueDone _ | .motion _ | .invalid => c } }

/-- R152: the scene's record is emptied by FORGET or replaced by a record of another kind: its watches end. -/
def sceneGone (scene : Nat) (s : State) : State := onSceneCues scene CueEntry.unwatch s

/-- R153: the scene's record becomes STALE: its watches' expiries become none. -/
def sceneStale (scene : Nat) (s : State) : State := onSceneCues scene (fun c => { c with watchExpiry := none }) s

/-! ## Actions (R154 to R156) -/

/-- R155: SOUND_START asks for a voice. A voice that its lock places beyond the end completes at once (R164). -/
def soundStart (id clip priority : Nat) (gains : List Nat) (lock : Option SceneLock) (s : State) : State :=
  let r := requestVoice { clip := clip, priority := priority, gains := gains, lock := lock, tag := .cue id } s
  let t := stealEvent r.2 r.1
  if r.2.ended then endReport (.cue id) true t else t

/-- R156, R171: SOUND_STOP stops every voice with the named cue's tag and completes at once. -/
def soundStop (id named : Nat) (s : State) : State :=
  let r := stopVoices (fun w => w.state != .idle && w.tag = .cue named) s.sound
  cueDone id (r.2.foldl (fun a t => endWithout t a) (arbitrate { s with sound := r.1 }))

/-- R148: the action of a cue is executed. -/
def executeCue (id : Nat) (s : State) : State :=
  match s.cues.table[id]? with
  | none => s
  | some c =>
    match c.action with
    | .linkCue scene cue => offerCue id scene [byteOf cue, byteOf s.tracker.lap.toNat] s
    | .soundStart clip priority gains lock => soundStart id clip priority gains lock s
    | .soundStop named => soundStop id named s
    | .invalid => s

/-- R148: an entry leaves the pending list. -/
def unlist (w : WaitingCue) (s : State) : State :=
  { s with cues := { s.cues with waiting := s.cues.waiting.erase w } }

/-- R148: an entry that is still in the pending list leaves it and its action is executed. What the action causes is
settled before the next entry. -/
def serveCue (s : State) (w : WaitingCue) : State :=
  if s.cues.waiting.contains w then
    settle (executeCue w.cue (unlist w s))
  else s

/-- R148: the entries due at the present local time are served, head first; entries that join meanwhile wait. -/
def servePending (s : State) : State :=
  (s.cues.waiting.filter fun w => w.due ≤ s.now).foldl serveCue s

/-- The local time advances by one ms (log 2). -/
def tick (s : State) : State := { s with now := s.now + 1 }

/-- PENDING_ADVANCE (R148): the local time advances by one ms and the pending list is served. The clock does not run
while the reset input is held (Table 7.4). -/
def execPendingAdvance (s : State) : Host.Outcome State Fault Refusal :=
  .next (if s.resetHeld then s else settle (servePending (tick s)))

/-- WATCH_EXPIRY (R153): the local time has reached the watch expiry of a cue. -/
def execWatchExpiry (cue : Nat) (s : State) : Host.Outcome State Fault Refusal :=
  .next (match s.cues.table[cue]? with
    | none => s
    | some c =>
      match c.watching, c.watchExpiry with
      | true, some t => if t ≤ s.now then settle (watchOccurs cue s) else s
      | _, _ => s)

end Sys2Proof.Machine
end

