-- ==== Sys2Proof/Machine/Position.lean ====
section
/-! DEFINITION. The Position Tracker's commands ODOMETRY_ADVANCE and MARKER_REPORT, and the handing on of a position
change (R45). -/
namespace Sys2Proof.Machine

/-- R55: an arrival puts a RUNNING or HOLDING vehicle into PARKED. -/
def motionArrival (ch : PosChange) (s : State) : State :=
  if ch.arrival && (s.motion.state = .running || s.motion.state = .holding) then enter .parked s else s

/-- R116: a position change that leaves the front outside the station zone withdraws the unlock conditions. -/
def stationWithdraw (s : State) : State := if s.inStation then s else withdrawUnlock s

/-- R45: a position change is handed on. The Motion Controller takes at berth as soon as it is reported (R55, R56; log 43).
The tracker's own reports, the Zone Claim Unit and the Cue Sequencer each take
it in one event, in an order the spec leaves open (R123; log 5); the Motion Controller then takes the arrival, and the
Restraint Monitor the front's zone. -/
def handOn (r : Route) (res : TrackerResult) (s : State) : State :=
  let s1 := judgeBerth { s with tracker := res.tracker }
  let s2 := eitherOrder (reportAll res.reports)
    (eitherOrder (claimsChange r res.change) (cuesChange r res.change)) s1
  stationWithdraw (motionArrival res.change s2)

/-! ## Odometry -/

/-- R36: floor(((cL + cR) × G + 1) / 2), before any clamp. -/
def rawAdvance (cL cR : Int) (scale : Nat) : Int := ((cL + cR) * (scale : Int) + 1) / 2

/-- R36: the advance after its clamps, and what each clamp reports. -/
def clampAdvance (raw : Int) : Nat × List Report :=
  if raw < 0 then (0, [.tally .speedClamp])
  else if (Config.maxAdvance : Int) < raw then (Config.maxAdvance, [.latch 19, .tally .speedClamp])
  else (raw.toNat, [])

/-- R38, R44: an interval's advance enters the history and adds its length to the distance since marker. -/
def Tracker.count (a : Nat) (t : Tracker) : Tracker :=
  { t with history := t.history.tail ++ [a], since := min Config.maxSince (t.since + a) }

/-- R116: a control interval's measured speed above 0 withdraws the unlock conditions. -/
def speedWithdraw (s : State) : State := if s.speed = 0 then s else withdrawUnlock s

/-- R38, R44: the interval's advance is counted. -/
def countAdvance (a : Nat) (s : State) : State := { s with tracker := s.tracker.count a }

/-- R36 to R38: the advance of one interval, once the counts have been read. Position is not advanced while confidence
is UNFIXED (R50). -/
def applyAdvance (a : Nat) (s : State) : State :=
  let s1 := speedWithdraw (countAdvance a s)
  match s1.placed with
  | none => s1
  | some (r, _) => handOn r (advanceResult r s1.settings.berthTolerance s1.speed a s1.tracker) s1

/-- R36: the wheel counts are read. -/
def readCounts (left right : Half) (s : State) : State :=
  { s with tracker := { s.tracker with odoL := left, odoR := right } }

/-- R36: the advance that a control interval's counts give, with its reports; each wheel's change is the difference modulo
65,536 taken as a signed 16-bit number. -/
def State.advance (s : State) (left right : Half) : Nat × List Report :=
  clampAdvance (rawAdvance (left - s.tracker.odoL).toInt (right - s.tracker.odoR).toInt s.settings.odoScale)

/-- R36, R50: a control interval's wheel counts; they are discarded during the load. -/
def odometry (left right : Half) (s : State) : State :=
  if s.loading then readCounts left right s
  else applyAdvance (s.advance left right).1 (reportAll (s.advance left right).2 (readCounts left right s))

/-- ODOMETRY_ADVANCE (R36): the counts of a control interval. During the image load the changes are discarded (R50). -/
def execOdometryAdvance (left right : Half) (s : State) : Host.Outcome State Fault Refusal :=
  .next (settle (odometry left right s))

/-! ## Markers -/

/-- R39 to R43: a complete marker report is judged against confidence and the expected marker. -/
def markerReport (code : Nat) (lateral : Int) (s : State) : State :=
  match s.route with
  | none => s
  | some r =>
    match (if code = 0 then none else r.markerPos code) with
    | none => tally .markerUnknown 1 s
    | some m =>
      if s.tracker.conf = .unfixed || s.tracker.conf = .lost then
        handOn r (fixResult r s.settings.berthTolerance s.speed code lateral (1000 * m) s.tracker) s
      else if s.tracker.expected = some code then
        handOn r (correctionResult r s.settings.berthTolerance s.speed code lateral (1000 * m) s.tracker) s
      else tally .markerUnknown 1 s

/-- MARKER_REPORT (R39): an incomplete report, and every report during the image load and in FAULT, is discarded. -/
def execMarkerReport (code : BitVec 12) (lateral : Half) (complete : Bool) (s : State) :
    Host.Outcome State Fault Refusal :=
  .next (settle (if !complete || s.loading || s.motion.state = .fault then s
    else markerReport code.toNat lateral.toInt s))

end Sys2Proof.Machine
end

