-- ==== Sys2Proof/Machine/MotionControl.lean ====
section
/-! DEFINITION. The Motion Controller: the speed permit (R64 to R72), steering (R73, R74), the demand record (R75), and
the commands DISPATCH, RESUME, the three RETIRE forms, PERMIT_COMPUTE, and the two stop inputs (R76). -/
namespace Sys2Proof.Machine

/-! ## The speed permit -/

/-- R71: the rise step U. -/
def Settings.riseStep (c : Settings) : Nat := c.accel / 100

/-- R71: the service step W. -/
def Settings.serviceStep (c : Settings) : Nat := (c.decel + 99) / 100

/-- R65: the least gap to a counted peer, or L. -/
def gapAhead (r : Route) (s : State) : Nat := s.countedPeers.foldl (fun d p => min d (ahead r.len s.front p.2.2)) r.len

/-- R65: Fv. -/
def freeVehicle (r : Route) (s : State) : Nat := gapAhead r s - (s.settings.bodyLength + s.settings.margin)

/-- R66: Fz. -/
def freeZone (r : Route) (s : State) : Nat :=
  match r.nextEntry s.front with
  | none => r.len
  | some (z, d) => if s.holds z then r.len else d - s.settings.margin

/-- R67: Fb. -/
def freeBerth (r : Route) (s : State) : Nat := s.tracker.fb.getD r.len

/-- R67: the free distance F. -/
def freeDistance (r : Route) (s : State) : Nat := min (freeVehicle r s) (min (freeZone r s) (freeBerth r s))

/-- R68: the braking permit Vb of a free distance. -/
def brakingPermit (decel free : Nat) : Nat := min 4000 (isqrt (2 * decel * free))

/-- R69: the ceiling ahead Vs. -/
def ceilingAhead (r : Route) (s : State) : Nat :=
  let c := r.ceilingsAhead s.front
  c.2.foldl (fun v p => min v (isqrt (p.1 * p.1 + 2 * s.settings.decel * p.2))) c.1

/-- R70: the level ceiling Vl. -/
def levelCeiling (slow level : Nat) : Nat := if level ≤ 3 then 4000 else if level ≤ 5 then slow else 0

/-- The stages of a permit that later stages read: Vb, Vs and Vc. -/
structure Permit where
  vb : Nat
  vs : Nat
  vc : Nat
  deriving DecidableEq, Repr

/-- R64 to R70: the permit. Without a placed front there is no distance to run: every stage is 0. -/
def permitOf (s : State) : Permit :=
  match s.placed with
  | none => { vb := 0, vs := 0, vc := 0 }
  | some (r, _) =>
    let vb := brakingPermit s.settings.decel (freeDistance r s)
    let vs := ceilingAhead r s
    { vb := vb, vs := vs, vc := min vb (min vs (min (levelCeiling s.settings.slow s.level) 4000)) }

/-- R71: the demand of a motion state, before the restraint limit. -/
def stateDemand (s : State) (p : Permit) : Nat :=
  match s.motion.state with
  | .running => min p.vc (s.motion.dPrev + s.settings.riseStep)
  | .stopping => min (s.motion.dPrev - s.settings.serviceStep) (min p.vb p.vs)
  | .start | .fault | .parked | .ready | .holding | .stopped | .estop => 0

/-- R71: while the restraint summary is other than ALL_VERIFIED the demand does not rise. -/
def limitDemand (s : State) (d : Nat) : Nat := if s.summary = .allVerified then d else min d s.motion.dPrev

/-- R57: in HOLDING, a ceiling Vc above 0 enters RUNNING within the interval. -/
def releaseHold (p : Permit) (s : State) : State :=
  if s.motion.state = .holding ∧ 0 < p.vc then enter .running s else s

/-- R72: the permit drop test, in RUNNING alone. -/
def permitDrops (s : State) (p : Permit) : Bool :=
  s.motion.state = .running && decide (min p.vb p.vs + 2 * s.settings.serviceStep < s.motion.dPrev)

/-- R57, R59: the changes of state after the demand of the interval is formed. -/
def stopOrHold (d : Nat) (s : State) : State :=
  match s.motion.state with
  | .running => if d = 0 ∧ s.speed = 0 then enter .holding s else s
  | .stopping => if s.speed = 0 then enter .stopped s else s
  | .estop => if s.level ≤ 6 ∧ s.speed = 0 then enter .stopped s else s
  | .start | .fault | .parked | .ready | .holding | .stopped => s

/-! ## Steering -/

/-- R73: the steering correction. -/
def steerCorrection (kl fade : Nat) (e : Int) (since : Nat) : Int :=
  let corr0 := -(((kl : Int) * e).tdiv 16)
  if since < fade then (corr0 * ((fade : Int) - (since : Int))).tdiv (fade : Int) else 0

/-- R74: the curvature before its clamp, where it is formed: not in START and FAULT, and not in UNFIXED. -/
def rawCurvature (s : State) : Option Int :=
  if s.motion.state = .start ∨ s.motion.state = .fault then none
  else s.placed.map fun p =>
    p.1.curvatureAt p.2 + steerCorrection s.settings.lateralGain s.settings.fadeDistance s.tracker.lateral s.sinceMm

/-- R74: the curvature demand κd, and whether the clamp changed it. -/
def curvatureDemand (s : State) : Int × Bool :=
  match rawCurvature s with
  | none => (0, false)
  | some k =>
    let c := clampInt (-(s.settings.curvatureLimit : Int)) s.settings.curvatureLimit k
    (c, c != k)

/-! ## One control interval -/

/-- R64, R70 to R72, R57, R59: the demand of the interval and the state after it. -/
def formDemand (s : State) : Nat × State :=
  let p := permitOf s
  let t := releaseHold p s
  let d := limitDemand t (stateDemand t p)
  let u := if permitDrops s p then latch 8 t else t
  (d, stopOrHold d u)

/-- R75: the record of the interval is sent, and its demand becomes D_prev (R64). In ESTOP the demand is 0 (R71, R72). -/
def sendRecord (d : Nat) (curvature : Int) (s : State) : State :=
  let speed := if s.motion.state = .estop then 0 else d
  { s with motion := { s.motion with
      dPrev := speed
      record := some { speed := speed, curvature := curvature, brake := s.brakeLine } } }

/-- R64, R74, R75: a control interval of the Motion Controller. An entry that the forming of the demand made is handed on
before STEER_LIMIT arrives, and otherwise when the record has been sent (R78; log 6). -/
def controlInterval (s : State) : State :=
  let f := formDemand s
  let c := curvatureDemand s
  sendRecord f.1 c.1 (if c.2 then tally .steerLimit 1 (atOnce f.2) else f.2)

/-- PERMIT_COMPUTE (R64): from the end of a full reset onward (R75). -/
def execPermitCompute (s : State) : Host.Outcome State Fault Refusal :=
  .next (if s.resetHeld then s else settle (controlInterval s))

/-! ## Commands -/

/-- R60, R61: RUNNING is entered, and the next demand starts from D_prev of 0. -/
def startRunning (s : State) : State :=
  enter .running { s with motion := { s.motion with dPrev := 0 } }

/-- R60: the owner's judgement of a DISPATCH. -/
def ownDispatch (source : Nat) (s : State) : State :=
  if s.motion.state = .ready then startRunning s else refuse .dispatch .wrongState source s

/-- DISPATCH (R60). -/
def execDispatch (source target : Nat) (s : State) : Host.Outcome State Fault Refusal :=
  .next (settle (commandRow .dispatch source target (ownDispatch source) s))

/-- R61: the first of RESUME's checks that fails. -/
def resumeRefusal (s : State) : Option RefusalReason :=
  if s.motion.state ≠ .stopped then some .wrongState
  else if 5 < s.level then some .levelTooHigh
  else if s.summary ≠ .allVerified then some .notVerified
  else if s.tracker.conf = .unfixed ∨ s.tracker.conf = .lost then some .positionNotGood
  else if s.motion.immediate then some .retired
  else none

/-- R77: the resume announcement is requested. -/
def resumeAnnouncement (s : State) : State :=
  match s.settings.resumeClip with
  | none => s
  | some clip =>
    if s.motion.resumeVoice then s
    else
      let r := requestVoice
        { clip := clip, priority := 3, gains := [128, 128, 128, 128], lock := none, tag := .resumeAnnouncement } s
      stealEvent r.2 { r.1 with motion := { r.1.motion with resumeVoice := r.2.started } }

/-- R61: a RESUME that passes its checks is taken: the entry into RUNNING is handed on (R78), and the resume announcement
requested (R77). -/
def takeResume (s : State) : State := resumeAnnouncement (atOnce (startRunning s))

/-- R61: the owner's judgement of a RESUME. -/
def ownResume (source : Nat) (s : State) : State :=
  match resumeRefusal s with
  | some reason => refuse .resume reason source s
  | none => takeResume s

/-- RESUME (R61). -/
def execResume (source target : Nat) (s : State) : Host.Outcome State Fault Refusal :=
  .next (settle (commandRow .resume source target (ownResume source) s))

/-- R62: the immediate retire flag is set. -/
def setImmediate (s : State) : State := { s with motion := { s.motion with immediate := true } }

/-- R62: RETIRE with form IMMEDIATE; with the flag already set it changes nothing. -/
def ownRetireImmediate (s : State) : State :=
  if s.motion.immediate then s
  else
    match s.motion.state with
    | .ready | .running | .holding => enter .stopping (setImmediate s)
    | .start | .fault | .parked | .stopping | .stopped | .estop => setImmediate s

/-- R63: RETIRE with form AT_STATION. -/
def ownRetireAtStation (s : State) : State := { s with motion := { s.motion with atStation := true } }

/-- R63: RETIRE with form LIFT. -/
def ownRetireLift (s : State) : State := { s with motion := { s.motion with immediate := false, atStation := false } }

/-- RETIRE_IMMEDIATE (R62). -/
def execRetireImmediate (source target : Nat) (s : State) : Host.Outcome State Fault Refusal :=
  .next (settle (commandRow .retire source target ownRetireImmediate s))

/-- RETIRE_AT_STATION (R63). -/
def execRetireAtStation (source target : Nat) (s : State) : Host.Outcome State Fault Refusal :=
  .next (settle (commandRow .retire source target ownRetireAtStation s))

/-- RETIRE_LIFT (R63). -/
def execRetireLift (source target : Nat) (s : State) : Host.Outcome State Fault Refusal :=
  .next (settle (commandRow .retire source target ownRetireLift s))

/-! ## Stop inputs (R76) -/

/-- DRIVE_FAULT (R76): the input goes from released to asserted, which latches DRIVE_FAULT from the end of a full
reset. -/
def execDriveFault (s : State) : Host.Outcome State Fault Refusal :=
  .next (if s.driveFaultIn then s
    else if s.resetHeld then { s with driveFaultIn := true }
    else settle (latch 9 { s with driveFaultIn := true }))

/-- LOCAL_STOP (R76): as DRIVE_FAULT, with its own condition. -/
def execLocalStop (s : State) : Host.Outcome State Fault Refusal :=
  .next (if s.localStopIn then s
    else if s.resetHeld then { s with localStopIn := true }
    else settle (latch 10 { s with localStopIn := true }))

/-- DRIVE_FAULT_INPUT_RELEASED (R76): the persistent cause of DRIVE_FAULT ends. -/
def execDriveFaultInputReleased (s : State) : Host.Outcome State Fault Refusal := .next { s with driveFaultIn := false }

/-- LOCAL_STOP_INPUT_RELEASED (R76): the persistent cause of LOCAL_STOP ends. -/
def execLocalStopInputReleased (s : State) : Host.Outcome State Fault Refusal := .next { s with localStopIn := false }

end Sys2Proof.Machine
end

