-- ==== Sys2Proof/Machine/Sound.lean ====
section
/-! DEFINITION. The Sound Engine: the output frame (R169, R170, R172, R175, R177, R178), reads (R165, R168), the scene
beacon (R165, R174, R175), and the commands OUTPUT_FRAME, FETCH_COMPLETE, FETCH_TIMEOUT and WAIT_EXPIRY. -/
namespace Sys2Proof.Machine

/-! ## One voice in one frame -/

/-- The sample at a place, where one of the buffers holds it. -/
def sampleAt (bufs : List Block) (cursor : Nat) : Option Int :=
  match bufs.find? fun b => b.start ≤ cursor && cursor < b.start + b.samples.length with
  | none => none
  | some b => some (b.samples.getD (cursor - b.start) 0).toInt

/-- R166: a buffer becomes empty when the position passes its last sample. -/
def liveBufs (bufs : List Block) (cursor : Nat) : List Block :=
  bufs.filter fun b => cursor < b.start + b.samples.length

/-- R166: the fetch point is not left behind the position. While the block at the fetch point is itself being read the
point is held, and the block's arrival then takes it to the later of the block's end and the position (log 41). -/
def nextFetch (reading : Bool) (fetch cursor : Nat) : Nat := if reading then fetch else max fetch cursor

/-- What one PLAYING or FADING voice does in one frame: its sample, the voice after it, whether it starts a run of
missing samples, and whether it ends, with completion or without. -/
structure VoiceFrame where
  sample : Int
  voice : Voice
  starves : Bool
  ended : Option Bool
  deriving DecidableEq, Repr

/-- R172: the fade step falls by one at each frame; after the frame with e = 0 the voice ends. -/
def fadeOn (w : Voice) : Voice × Bool :=
  if w.state = .fading then ({ w with fadeStep := w.fadeStep - 1 }, w.fadeStep = 0) else (w, false)

/-- R170, R172: the end of a voice in this frame: its fade's end, or a non-looping clip's end; it completes only when
it passes the clip's end while PLAYING. -/
def endOf (w : Voice) (passed faded : Bool) : Option Bool :=
  if passed then some (w.state = .playing) else if faded then some false else none

/-- R169, R175: the sample that a sounding voice gives: the one at its position, 0 where no buffer holds it; within a
crossfade the mean of the old stream's and the new's. -/
def Voice.sample (w : Voice) : Int :=
  match w.jump with
  | .crossfade c b _ => ((sampleAt w.bufs w.cursor).getD 0 + (sampleAt [b] c).getD 0 + 1) / 2
  | .none | .pending _ _ => (sampleAt w.bufs w.cursor).getD 0

/-- R169, R175: a voice's frame. Its end follows the loop flag of its clip's record, whoever asked for the voice: a condition's
announcement of a looping clip (R126) plays on until something else ends it (log 45). Within a crossfade the new stream's
place decides the end (log 17). -/
def voiceFrame (clip : Clip) (reading : Bool) (w : Voice) : VoiceFrame :=
  match w.jump with
  | .crossfade c b left =>
    let w1 :=
      if left ≤ 1 then
        { w with cursor := c + 1, bufs := liveBufs [b] (c + 1), jump := .none,
                 fetch := nextFetch reading w.fetch (c + 1), underrun := false }
      else
        { w with cursor := w.cursor + 1, bufs := liveBufs w.bufs (w.cursor + 1), jump := .crossfade (c + 1) b (left - 1),
                 underrun := false }
    let f := fadeOn w1
    { sample := w.sample, voice := f.1, starves := false, ended := endOf w (!clip.loops && clip.length ≤ c + 1) f.2 }
  | .none | .pending _ _ =>
    let missing := (sampleAt w.bufs w.cursor).isNone
    let w1 :=
      { w with
        cursor := w.cursor + 1
        bufs := liveBufs w.bufs (w.cursor + 1)
        fetch := nextFetch (reading && w.jump = .none) w.fetch (w.cursor + 1)
        jump := match w.jump with
          | .pending t n => .pending t (n + 1)
          | j => j
        underrun := missing }
    let f := fadeOn w1
    { sample := w.sample, voice := f.1, starves := missing && !w.underrun,
      ended := endOf w (!clip.loops && clip.length ≤ w.cursor + 1) f.2 }

/-- R169: the frame of each voice that sounds, none of the others. -/
def SoundEngine.frames (e : SoundEngine) : List (Option VoiceFrame) :=
  e.voices.zipIdx.map fun (w, v) =>
    if w.state = .playing || w.state = .fading then
      some (voiceFrame ((e.clip w.clip).getD { address := 0, length := 0, loops := false }) (e.reading v) w)
    else none

/-! ## Mixer (R177) -/

/-- R177: the effective gain of a voice: ducked below priority 3 while an announcement plays, and scaled by the fade. -/
def effGain (duck : Bool) (w : Voice) (g : Nat) : Nat :=
  let g1 := if w.priority < 3 && duck then (g + 1) / 2 else g
  if w.state = .fading then (g1 * w.fadeStep + 32) / 64 else g1

/-- R177: some priority-3 voice is PLAYING. -/
def SoundEngine.ducks (e : SoundEngine) : Bool := e.voices.any fun w => w.priority = 3 && w.state = .playing

/-- R177: the exact sum S of one channel. -/
def SoundEngine.mixSum (e : SoundEngine) (channel : Nat) : Int :=
  ((e.voices.zip e.frames).map fun (w, f) =>
    match f with
    | none => 0
    | some q => q.sample * (effGain e.ducks w (w.gains.getD channel 0) : Int)).sum

/-- R177: the output sample sat16(floor((S + 64) / 128)). -/
def mixOut (sum : Int) : Int := sat16 ((sum + 64) / 128)

/-- R178: the 32 bits of a stereo data line in a frame, left slot then right slot, most significant bit first. -/
def stereoWord (left right : Int) : BitVec 32 := BitVec.ofInt 16 left ++ BitVec.ofInt 16 right

/-- R178, Table 9.5: data line 1 carries front-left and front-right. -/
def SoundEngine.line1 (e : SoundEngine) : BitVec 32 := stereoWord (e.out.getD 0 0) (e.out.getD 1 0)

/-- R178, Table 9.5: data line 2 carries rear-left and rear-right. -/
def SoundEngine.line2 (e : SoundEngine) : BitVec 32 := stereoWord (e.out.getD 2 0) (e.out.getD 3 0)

/-- The engine after a frame: the four outputs, the voices advanced, the ended ones IDLE. -/
def SoundEngine.advance (e : SoundEngine) : SoundEngine :=
  let fs := e.frames
  let moved : SoundEngine :=
    { e with
      out := [mixOut (e.mixSum 0), mixOut (e.mixSum 1), mixOut (e.mixSum 2), mixOut (e.mixSum 3)]
      voices := (e.voices.zip fs).map fun (w, f) => match f with
        | none => w
        | some q => q.voice }
  (fs.zipIdx.filter fun (f, _) => (f.bind VoiceFrame.ended).isSome).foldl (fun a p => a.free p.2) moved

/-- R169, R173: what one voice reports of a frame: a SOUND_UNDERRUN at a run's first frame, and its end. -/
def frameReport (s : State) (p : Voice × Option VoiceFrame) : State :=
  match p.2 with
  | none => s
  | some f =>
    let t := if f.starves then tally .soundUnderrun 1 s else s
    match f.ended with
    | none => t
    | some completed => endReport p.1.tag completed t

/-- R169: one output frame: every voice advances and the ended ones are freed, the arbiter judges (R167), and the voices
report in ascending number, each its underrun before its end (log 40). -/
def outputFrame (s : State) : State :=
  (s.sound.voices.zip s.sound.frames).foldl frameReport (arbitrate { s with sound := s.sound.advance })

/-- OUTPUT_FRAME (R169): from the end of a full reset onward. -/
def execOutputFrame (s : State) : Host.Outcome State Fault Refusal :=
  .next (if s.resetHeld then s else settle (outputFrame s))

/-! ## Reads (R165, R168) -/

/-- The block of a completed read: as many samples as the read asked for. -/
def blockOf (r : Read) (samples : List Half) : Block :=
  { start := r.start, samples := (List.range r.size).map fun i => samples.getD i 0 }

/-- R165, R168, R175: the block arrives at its voice. -/
def blockArrives (now : Nat) (b : Block) (w : Voice) : Voice :=
  let stop := b.start + b.samples.length
  match w.jump with
  | .pending target n =>
    { w with jump := .crossfade (target + n) b Config.crossfade, fetch := max stop (target + n) }
  | .none | .crossfade _ _ _ =>
    let w1 := { w with bufs := liveBufs (w.bufs ++ [b]) w.cursor, fetch := max stop w.cursor }
    if w.state = .fetching then
      if w.waitExpiry.any fun t => now < t then { w1 with state := .waiting }
      else { w1 with state := .playing, waitExpiry := none }
    else w1

/-- R168: the port is free and the block lies in its voice's buffer. -/
def takeRead (r : Read) (samples : List Half) (s : State) : State :=
  { s with sound := { s.sound with
      read := none
      voices := updateAt r.voice (blockArrives s.now (blockOf r samples)) s.sound.voices } }

/-- The read of this voice that was granted at this local time; its timeout was set by the grant (R167). -/
def Read.isOf (voice granted : Nat) (r : Read) : Bool := r.voice = voice && r.timeout = granted + Config.readTimeout

/-- FETCH_COMPLETE (R168): the read of a voice granted at a local time completes and the port is free. A completion whose
read has ended finds no read (log 44). -/
def execFetchComplete (done : Completion) (s : State) : Host.Outcome State Fault Refusal :=
  .next (match s.sound.read with
    | none => s
    | some r => if r.isOf done.voice done.granted then settle (takeRead r done.samples s) else s)

/-- R168: the voice of this number, active with this tag, is the one whose read failed. What SOUND_FAULT leads to may have
ended that voice, and given its number to an announcement, whose tag is another (R163, R171). -/
def stillActive (v : Nat) (tag : VoiceTag) (e : SoundEngine) : Bool :=
  (e.voices[v]?).any fun w => w.state != .idle && w.tag = tag

/-- R168: the voice of a read becomes IDLE, where it is still active, and the port is free. -/
def SoundEngine.dropRead (e : SoundEngine) (r : Read) (active : Bool) : SoundEngine :=
  let freed := if active then e.free r.voice else e
  if freed.read = some r then { freed with read := none } else freed

/-- R168: the timeout of a read: SOUND_FAULT is latched, its voice becomes IDLE, the port is free, which the arbiter judges
(R167), and the end report is a flash fault's (R173; log 16). -/
def readFails (r : Read) (s : State) : State :=
  let tag := ((s.sound.voices[r.voice]?).map Voice.tag).getD (.cue 0)
  let t := latch 18 s
  let active := stillActive r.voice tag t.sound
  let u := arbitrate { t with sound := t.sound.dropRead r active }
  if active then endReport tag false u else u

/-- FETCH_TIMEOUT (R168): the read in progress is not done 2 ms after its grant. -/
def execFetchTimeout (s : State) : Host.Outcome State Fault Refusal :=
  .next (match s.sound.read with
    | none => s
    | some r => if r.timeout ≤ s.now then settle (readFails r s) else s)

/-- R165: a WAITING voice enters PLAYING. -/
def playWaiting (voice : Nat) (w : Voice) (s : State) : State :=
  { s with sound := { s.sound with voices := s.sound.voices.set voice { w with state := .playing, waitExpiry := none } } }

/-- WAIT_EXPIRY (R165): a WAITING voice reaches its wait expiry and enters PLAYING at position 0. -/
def execWaitExpiry (voice : Nat) (s : State) : Host.Outcome State Fault Refusal :=
  .next (match s.sound.voices[voice]? with
    | none => s
    | some w =>
      match w.state, w.waitExpiry with
      | .waiting, some t =>
        if t ≤ s.now then settle (playWaiting voice w s) else s
      | _, _ => s)

/-! ## Scene beacons (R165, R174, R175) -/

/-- R174: the drift between a position and the expected sample. -/
def driftOf (clip : Clip) (cursor expected : Nat) : Nat :=
  if clip.loops then
    min (ahead clip.length (expected % clip.length) (cursor % clip.length))
      (clip.length - ahead clip.length (expected % clip.length) (cursor % clip.length))
  else max (cursor - expected) (expected - cursor)

/-- R175: a jump starts: the buffer that holds the sample at the position is kept, the other emptied. A read for the old
stream has been ended, so its fetch point is no longer held behind the position (R166). -/
def startJump (target : Nat) (w : Voice) : Voice :=
  { w with
    bufs := w.bufs.filter fun b => b.start ≤ w.cursor && w.cursor < b.start + b.samples.length
    fetch := max w.fetch w.cursor
    jump := .pending target 0 }

/-- R174: whether a voice is due for a check. -/
def checkDue (resync now : Nat) (w : Voice) : Bool :=
  resync != 0 && (match w.lastCheck with | none => true | some t => resync ≤ now - t)

/-- R174: the check of a PLAYING voice; the tag of a voice that its lock places beyond its end. -/
def checkVoice (now estimate : Nat) (anchor v : Nat) (w : Voice) (clip : Clip) (e : SoundEngine) :
    SoundEngine × Option VoiceTag :=
  if sceneReached estimate anchor then
    let x := sceneSince estimate anchor * 24
    if !clip.loops && clip.length ≤ x then (e.free v, some w.tag)
    else if driftOf clip w.cursor x ≤ Config.driftLimit then
      ({ e with voices := e.voices.set v { w with lastCheck := some now } }, none)
    else
      ({ e.endRead v with
          voices := e.voices.set v
            { startJump (if clip.loops then x % clip.length else x) w with lastCheck := some now } }, none)
  else
    ({ e.endRead v with
        voices := e.voices.set v
          { w with
            state := .waiting, bufs := [], cursor := 0, fetch := 0, lastCheck := some now, underrun := false
            waitExpiry := some (now + sceneWait estimate anchor) } }, none)

/-- R165, R174: one voice at an accepted beacon of a scene. -/
def beaconVoice (now resync scene estimate : Nat) (e : SoundEngine) (v : Nat) : SoundEngine × Option VoiceTag :=
  match e.voices[v]? with
  | none => (e, none)
  | some w =>
    match w.lock with
    | none => (e, none)
    | some l =>
      if l.scene != scene then (e, none)
      else if w.state = .waiting then
        if sceneReached estimate l.anchor then
          ({ e with voices := e.voices.set v { w with state := .playing, waitExpiry := none } }, none)
        else
          ({ e with voices := e.voices.set v { w with waitExpiry := some (now + sceneWait estimate l.anchor) } }, none)
      else if w.state = .playing && w.jump = .none && checkDue resync now w then
        match e.clip w.clip with
        | none => (e, none)
        | some c => checkVoice now estimate l.anchor v w c e
      else (e, none)

/-- R165, R174: one voice of the engine at an accepted beacon of a scene; a read that its jump ends frees the port, which
the arbiter judges at once (R167). The tags are those of voices placed beyond their end. -/
def beaconStep (scene estimate : Nat) (acc : State × List VoiceTag) (v : Nat) : State × List VoiceTag :=
  let q := beaconVoice acc.1.now acc.1.settings.resync scene estimate acc.1.sound v
  (arbitrate { acc.1 with sound := q.1 }, acc.2 ++ q.2.toList)

/-- R23: an accepted SCENE beacon is given to the Sound Engine, voice by voice in ascending number; a voice placed beyond its
end makes its end report as a completion (R173), after every voice has been checked (log 47). -/
def soundBeacon (scene : Nat) (s : State) : State :=
  match s.estimate scene with
  | none => s
  | some est =>
    let r := (List.range s.sound.voices.length).foldl (beaconStep scene est) (s, [])
    r.2.foldl (fun a t => endReport t true a) r.1

end Sys2Proof.Machine
end

