-- ==== Sys2Proof/Machine/Peers.lean ====
section
/-! DEFINITION. The Peer Table: the taking of a beacon (R19 to R23, R26, R29), ageing (R24, R25, R28) and FORGET (R27),
and the commands PEER_STALE, PEER_LOST and FORGET. -/
namespace Sys2Proof.Machine

/-- The record of an address is replaced. -/
def setPeer (address : Nat) (p : Option Peer) (s : State) : State :=
  { s with peers := if address = 0 then s.peers else s.peers.set (address - 1) p }

/-- R21: the sequence difference d. -/
def seqDiff (seq last : Nat) : Nat := (seq + (256 - last % 256)) % 256

/-- R26: the route position of a VEHICLE body; unknown when the Route Store holds no route. -/
def beaconPos (route : Option Route) (kind : StationKind) (body : List Byte) : Option Nat :=
  match kind, route with
  | .vehicle, some r => r.peerPos (bodySegment body) (bodyOffset body)
  | _, _ => none

/-- R19 to R23: the record after an accepted beacon, with the frames newly lost. `old` is a record of the same kind. -/
def acceptedPeer (s : State) (kind : StationKind) (seq : Nat) (body : List Byte) (old : Option Peer) : Peer × Nat :=
  let lost := match old with
    | none => 0
    | some p => if 2 ≤ seqDiff seq p.lastSeq ∧ seqDiff seq p.lastSeq ≤ 127 then seqDiff seq p.lastSeq - 1 else 0
  ({ state := .fresh, kind := kind, lastSeq := seq, received := s.now
     framesLost := min 255 (((old.map Peer.framesLost).getD 0) + lost)
     body := body, routePos := beaconPos s.route kind body }, lost)

/-- R29: an accepted VEHICLE beacon whose route id differs from the own latches ROUTE_MISMATCH. -/
def routeCheck (body : List Byte) (s : State) : State :=
  match s.route with
  | none => s
  | some r => if bodyRouteId body = r.id then s else latch 5 s

/-- R22: the frames lost are reported as one arrival of that amount. -/
def framesLostEvent (lost : Nat) (s : State) : State := if lost = 0 then s else tally .framesLost lost s

/-- R20, R152: a SCENE record replaced by another kind ends the watches of its scene. -/
def sceneReplaced (source : Nat) (before : Option Peer) (kind : StationKind) (s : State) : State :=
  match before with
  | none => s
  | some p => if p.kind = .scene ∧ kind ≠ .scene then sceneGone source s else s

/-- R152: the governed zone that a record gave before this beacon, none when it gave none. -/
def zoneBefore (before : Option Peer) : Option Nat :=
  match before with
  | none => none
  | some p => if p.kind = .scene then some (sceneZone p.body) else none

/-- R23: an accepted beacon is handed on, by its kind: a VEHICLE's to the Zone Claim Unit and then to the route check,
a SCENE's to the Cue Sequencer and the Sound Engine in either order. -/
def handBeacon (source : Nat) (kind : StationKind) (body : List Byte) (before : Option Peer) (s : State) : State :=
  match kind with
  | .vehicle => routeCheck body (evaluateClaims s)
  | .scene => eitherOrder (cuesBeacon source (zoneBefore before)) (soundBeacon source) s
  | .load => s
  | .operator => s

/-- R20, R21: the record before a beacon, where its kind is the beacon's. -/
def sameKind (before : Option Peer) (kind : StationKind) : Option Peer :=
  match before with
  | none => none
  | some p => if p.kind = kind then some p else none

/-- R19 to R23: a beacon from another station. A duplicate of the same kind is discarded. R22 and R23 give no order for the
FRAMES_LOST arrival and the handing on of the acceptance: the model reports the frames lost first (log 36). -/
def takeBeacon (source : Nat) (kind : StationKind) (body : List Byte) (s : State) : State :=
  let before := s.peer source
  let same := sameKind before kind
  let seq := byteAt body 1
  if same.any fun p => seqDiff seq p.lastSeq = 0 then s
  else
    let a := acceptedPeer s kind seq body same
    handBeacon source kind body before
      (framesLostEvent a.2 (sceneReplaced source before kind (setPeer source (some a.1) s)))

/-! ## Ageing (R25, R28) -/

/-- R25, R28: a STALE record becomes LOST; a VEHICLE's step latches PEER_LOST. -/
def becomeLost (address : Nat) (p : Peer) (s : State) : State :=
  let t := setPeer address (some { p with state := .lost }) s
  if p.kind = .vehicle then latch 4 t else t

/-- R25, R153: a FRESH record becomes STALE, and a SCENE's watches lose their expiries. -/
def becomeStale (address : Nat) (p : Peer) (s : State) : State :=
  let t := setPeer address (some { p with state := .stale }) s
  if p.kind = .scene then sceneStale address t else t

/-- PEER_STALE (R25): the age of a FRESH record exceeds the stale time; with a lost time not greater than the stale
time the record goes on to LOST within the same expiry. -/
def execPeerStale (address : Nat) (s : State) : Host.Outcome State Fault Refusal :=
  .next (match s.peer address with
    | none => s
    | some p =>
      if p.state = .fresh && s.settings.staleTime < s.ageOf p then
        let t := becomeStale address p s
        settle (if s.settings.lostTime ≤ s.settings.staleTime then becomeLost address p t else t)
      else s)

/-- PEER_LOST (R25, R28): the age of a STALE record exceeds the lost time. -/
def execPeerLost (address : Nat) (s : State) : Host.Outcome State Fault Refusal :=
  .next (match s.peer address with
    | none => s
    | some p =>
      if p.state = .stale && s.settings.lostTime < s.ageOf p then settle (becomeLost address p s) else s)

/-! ## FORGET (R27) -/

/-- R27: the named record becomes EMPTY. The own address, an address outside 1–31 and an EMPTY record have no effect. -/
def forgetPeer (address : Nat) (s : State) : State :=
  if address = s.link.ownAddress then s
  else
    match s.peer address with
    | none => s
    | some p =>
      let t := setPeer address none s
      if p.kind = .scene then sceneGone address t else t

/-- FORGET (R27). -/
def execForget (source target address : Nat) (s : State) : Host.Outcome State Fault Refusal :=
  .next (settle (commandRow .forget source target (forgetPeer address) s))

end Sys2Proof.Machine
end

