-- ==== Sys2Proof/Machine/Reports.lean ====
section
/-! DEFINITION. The bytes the part sends: the beacon (Table 1.4, Table 11.3) and the REPORT bodies (Table 1.7, Table
11.5). -/
namespace Sys2Proof.Machine

/-! ## Beacon (R5) -/

/-- Table 1.4: the segment and offset a beacon shows; 255 and 0 while confidence is UNFIXED or LOST. -/
def State.beaconPlace (s : State) : Nat × Nat := if s.tracker.conf = .lost then (255, 0) else s.frontSegment

/-- Table 1.4: the retire form. -/
def Motion.retireForm (m : Motion) : Nat := if m.immediate then 1 else if m.atStation then 2 else 0

/-- R187: the last refusal as three bytes. -/
def refusalBytes : Option LastRefusal → List Byte
  | none => [255, 0, 0]
  | some r => [byteOf r.kind.code, byteOf r.reason.code, byteOf r.source]

/-- Table 11.4: a claim's stage. -/
def Stage.code : Stage → Nat
  | .intent => 0 | .held => 1

/-- R5: the body of the beacon that starts now. -/
def State.beaconBody (s : State) : List Byte :=
  [byteOf StationKind.vehicle.code, s.link.seq, byteOf s.motion.state.code, byteOf ((s.route.map Route.id).getD 255),
    byteOf s.beaconPlace.1]
  ++ bytes2 s.beaconPlace.2 ++ bytes2 s.speed
  ++ [byteOf s.tracker.conf.code, byteOf s.level, byteOf s.summary.code, byteOf s.motion.retireForm,
    byteOf s.tracker.lap.toNat]
  ++ refusalBytes s.link.lastRefusal ++ [byteOf s.claims.length]
  ++ s.claims.flatMap fun c => [byteOf c.zone, byteOf c.stage.code]

/-- R5: the beacon frame. -/
def State.beaconFrame (s : State) : List Byte := frameOf 0 s.link.ownAddress 0 s.beaconBody

/-- The frame of a queued item (Table 11.1). -/
def queuedBytes (own : Nat) : QueuedFrame → List Byte
  | .cue _ _ dest body => frameOf 1 own dest body
  | .report dest body => frameOf 10 own dest body

/-! ## REPORT contents (Table 11.5, from body byte 3) -/

/-- CONDITIONS: a condition's two bytes. -/
def conditionBytes (c : Condition) : List Byte :=
  [byteOf (c.level + bitOf c.latched 8 + bitOf c.escalated 16 + bitOf c.announceFirst 32), byteOf c.remaining]

/-- CONDITIONS. -/
def conditionsReport (s : State) : List Byte := s.cond.records.flatMap conditionBytes ++ [byteOf s.level]

/-- FIRST_FAULT. -/
def firstFaultReport (s : State) : List Byte :=
  match s.cond.firstFault with
  | none => List.replicate 17 0
  | some f =>
    [1, byteOf f.condition, byteOf f.level, byteOf f.motion.code, byteOf f.conf.code, byteOf f.segment]
      ++ bytes2 f.offset ++ [byteOf f.zone] ++ bytes2 f.lap ++ bytes2 f.speed ++ bytes4 f.time

/-- TALLIES: a counter's three bytes; an unchained counter is shown as armed (R138). -/
def counterBytes (c : Counter) : List Byte :=
  bytes2 c.value ++ [byteOf (bitOf c.tripped 1 + bitOf c.chained 2 + bitOf (c.armed || !c.chained) 4)]

/-- TALLIES. -/
def talliesReport (s : State) : List Byte := s.cond.counters.flatMap counterBytes ++ [byteOf (bitOf s.cond.frozen 1)]

/-- R187: the seat and the line of a RESTRAINT selector, where it is within its range. -/
def restraintSelector (selector : Nat) : Option (Nat × Nat) :=
  let seat := selector % 8
  if 1 ≤ seat ∧ seat ≤ 6 ∧ selector / 8 % 16 = 0 then some (seat, selector / 128 % 2) else none

/-- RESTRAINT: a seat and one of its lines. -/
def seatLineBytes (q : Seat) (l : Line) : List Byte :=
  [byteOf q.state.code,
    byteOf (bitOf q.code.isSome 1 + bitOf q.reference.isSome 2 + bitOf l.capture.isSome 4),
    byteOf (judgementCode l.judgement), byteOf (q.code.getD 0), byteOf (q.reference.getD 0), byteOf l.mismatches]
  ++ (match l.capture with
    | none => [0, 0, 0, 0]
    | some (expected, actual) => bytes2 expected.toNat ++ bytes2 actual.toNat)

/-- RESTRAINT. -/
def restraintReport (selector : Nat) (s : State) : Option (List Byte) :=
  match restraintSelector selector with
  | none => none
  | some (seat, line) =>
    match s.restraint.seats[seat - 1]?, s.restraint.lines[2 * (seat - 1) + line]? with
    | some q, some l => some (seatLineBytes q l)
    | _, _ => none

/-- R96: the intent age of an entry, 0 when it is HELD. -/
def claimAge (now : Nat) (c : Claim) : Nat :=
  match c.stage, c.since with
  | .intent, some t => min 65535 (now - t)
  | _, _ => 0

/-- CLAIMS: one slot. -/
def claimSlot (now : Nat) : Option Claim → List Byte
  | none => [0, 0, 0, 0]
  | some c => [byteOf c.zone, byteOf c.stage.code] ++ bytes2 (claimAge now c)

/-- CLAIMS. -/
def claimsReport (s : State) : List Byte :=
  [byteOf s.claims.length] ++ claimSlot s.now s.claims[0]? ++ claimSlot s.now s.claims[1]?

/-- PEER: a filled record. -/
def peerBytes (s : State) (p : Peer) : List Byte :=
  [byteOf p.state.code, byteOf p.kind.code, byteOf p.lastSeq] ++ bytes2 (s.ageOf p)
  ++ [byteOf p.framesLost, byteOf p.body.length] ++ p.body ++ List.replicate (22 - p.body.length) 0

/-- PEER. -/
def peerReport (selector : Nat) (s : State) : Option (List Byte) :=
  if 1 ≤ selector ∧ selector ≤ 31 then
    some (match s.peer selector with
      | none => List.replicate 29 0
      | some p => peerBytes s p)
  else none

/-- R15: the contents of a REPORT, none for NO_ITEM. -/
def reportContents (kind selector : Nat) (s : State) : Option (List Byte) :=
  match kind with
  | 0 => some (conditionsReport s)
  | 1 => some (firstFaultReport s)
  | 2 => some (talliesReport s)
  | 3 => restraintReport selector s
  | 4 => some (claimsReport s)
  | 5 => peerReport selector s
  | _ => none

/-- R15, R187: the body of the REPORT that answers a QUERY. -/
def reportBody (kind selector : Nat) (s : State) : List Byte :=
  match reportContents kind selector s with
  | none => [byteOf kind, byteOf selector, 1]
  | some c => [byteOf kind, byteOf selector, 0] ++ c

end Sys2Proof.Machine
end

