-- ==== Sys2Proof/Machine/Resets.lean ====
section
/-! DEFINITION. The two resets: FULL_RESET and FULL_RESET_END (R180), and RESTART with the show restart (R186). -/
namespace Sys2Proof.Machine

/-! ## Full reset (R180) -/

/-- R180: every block takes its full-reset values. The lines stay as they stand outside: the two stop inputs and
carrier detect. A frame on the carrier cannot be received any more (R10). -/
def fullReset (s : State) : State :=
  { State.reset with
    pending := s.pending
    draws := s.draws
    resetHeld := true
    driveFaultIn := s.driveFaultIn
    localStopIn := s.localStopIn
    link := { Link.reset with carrier := s.link.carrier, quiet := s.link.quiet, frameLost := s.link.carrier } }

/-- FULL_RESET (R180): the reset input is held. -/
def execFullReset (s : State) : Host.Outcome State Fault Refusal := .next (fullReset s)

/-- R76: an input found asserted at the end of a full reset is an occurrence of its condition. -/
def inputsAtReset (s : State) : State :=
  let t := if s.driveFaultIn then latch 9 s else s
  if t.localStopIn then latch 10 t else t

/-- FULL_RESET_END (R180): the reset input is released, the load starts from its first read, and the inputs are
watched. -/
def execFullResetEnd (s : State) : Host.Outcome State Fault Refusal :=
  .next (if s.resetHeld then settle (inputsAtReset { s with resetHeld := false }) else s)

/-! ## Show restart (R186) -/

/-- R17: the link at a show restart. -/
def Link.restart (l : Link) : Link :=
  { Link.reset with
    carrier := l.carrier, quiet := l.quiet, frameLost := l.carrier, seq := l.seq, ownAddress := l.ownAddress
    ownHeard := l.ownHeard }

/-- R51: the tracker at a show restart. -/
def Tracker.restart (t : Tracker) : Tracker := { Tracker.reset with lap := t.lap, odoL := t.odoL, odoR := t.odoR }

/-- R79: the Motion Controller at a show restart; demand records continue (R79). -/
def Motion.restart (m : Motion) : Motion := { Motion.reset with record := m.record, notices := m.notices }

/-- R143: the Condition Unit at a show restart. -/
def ConditionUnit.restart (u : ConditionUnit) : ConditionUnit :=
  { u with records := u.records.map fun c => { c with announcement := .none }, durations := [] }

/-- R179: the Sound Engine at a show restart; the output carries 0 from the next frame. -/
def SoundEngine.restart (e : SoundEngine) : SoundEngine := { SoundEngine.reset with out := e.out }

/-- R186: a RESTART that is taken: the motion state enters START, every block takes its show-restart values, and the
load runs anew. -/
def showRestart (s : State) : State :=
  enter .start
    { restraintRestart s with
      link := s.link.restart
      peers := List.replicate 31 none
      route := none
      tracker := s.tracker.restart
      motion := s.motion.restart
      claims := []
      cond := s.cond.restart
      cues := { table := [], waiting := [] }
      sound := s.sound.restart
      loader := { progress := .loading, listenExpiry := none, staged := none } }

/-- R186: the reason for which a RESTART is refused. -/
def restartRefusal (s : State) : Option RefusalReason :=
  if 0 < s.speed then some .moving
  else
    match s.motion.state with
    | .parked | .stopped | .estop | .fault => none
    | .start | .ready | .running | .holding | .stopping => some .wrongState

/-- R186: the owner's judgement of a RESTART. -/
def ownRestart (source : Nat) (s : State) : State :=
  match restartRefusal s with
  | some reason => refuse .restart reason source s
  | none => showRestart s

/-- RESTART (R186). -/
def execRestart (source target : Nat) (s : State) : Host.Outcome State Fault Refusal :=
  .next (settle (commandRow .restart source target (ownRestart source) s))

end Sys2Proof.Machine
end

