-- ==== Sys2Proof/Machine/Link.lean ====
section
/-! DEFINITION. The Link Controller's commands: channel access (R1, R2), the beacon (R3 to R5), the queue's expiries
(R8), reception (R10, R11), silence (R16) and QUERY (R15). -/
namespace Sys2Proof.Machine

/-! ## Channel access (R1) -/

/-- CARRIER_ON (R1): in COUNTDOWN k rises and GAP is entered; in every other state only the line and the gap are
affected. A frame that begins while the receiver is off is lost (R2, R10; log 8). -/
def execCarrierOn (s : State) : Host.Outcome State Fault Refusal :=
  .next (if s.link.carrier then s
    else
      let l := { s.link with carrier := true, quiet := false, frameLost := !s.receiverOn }
      match s.link.access with
      | .countdown => { s with link := { l with access := .gap, k := min 6 (l.k + 1), slots := 0 } }
      | .idle | .gap | .sending => { s with link := l })

/-- GAP_MET (R1): 50 µs of carrier-off time are completed. In GAP COUNTDOWN is entered with a new draw. -/
def execGapMet (s : State) : Host.Outcome State Fault Refusal :=
  .next (if s.link.carrier then s
    else
      let t := { s with link := { s.link with quiet := true } }
      match s.link.access with
      | .gap => enterCountdown t
      | .idle | .countdown | .sending => t)

/-- The transmission of a frame starts: the access state is SENDING and the receiver is off (R2). -/
def startSending (frame : List Byte) (s : State) : State :=
  { s with link := { s.link with
      access := .sending, slots := 0, onAir := some frame, frameLost := s.link.frameLost || s.link.carrier } }

/-- R5: the sequence counter advances and no beacon is due. -/
def countBeacon (s : State) : State := { s with link := { s.link with seq := s.link.seq + 1, beaconDue := none } }

/-- R5, R4: the beacon starts: its contents are taken, the sequence counter advances, its wait ends, and the Zone Claim
Unit is told. -/
def sendBeacon (s : State) : State :=
  evaluateClaims (endDuration .backoffLong (countBeacon (startSending s.beaconFrame s)))

/-- The transmit queue is replaced. -/
def setQueue (q : List QueuedFrame) (s : State) : State := { s with link := { s.link with queue := q } }

/-- R2: a queued frame starts: it leaves the queue; a CUE is reported as done (R154, R157). -/
def sendQueued (f : QueuedFrame) (rest : List QueuedFrame) (s : State) : State :=
  let t := startSending (queuedBytes s.link.ownAddress f) (setQueue rest s)
  match f with
  | .cue _ id _ _ => cueDone id t
  | .report _ _ => t

/-- R2: the frame to send is chosen: a due beacon, else the head of the queue, else nothing. -/
def chooseFrame (s : State) : State :=
  if s.link.beaconDue.isSome then sendBeacon s
  else
    match s.link.queue with
    | [] => { s with link := { s.link with access := .idle, slots := 0 } }
    | f :: rest => sendQueued f rest s

/-- COUNTDOWN_END (R2): the slots remaining reach 0. -/
def execCountdownEnd (s : State) : Host.Outcome State Fault Refusal :=
  .next (match s.link.access with
    | .countdown => settle (chooseFrame s)
    | .idle | .gap | .sending => s)

/-- TRANSMISSION_END (R1): k returns to 3; GAP is entered when something remains to send. The part's own transmission
was no carrier-off time: the gap is counted from here (Table 1.8). -/
def execTransmissionEnd (s : State) : Host.Outcome State Fault Refusal :=
  .next (match s.link.access with
    | .sending =>
      { s with link := { s.link with
          access := if s.contends && s.link.wantsToSend then .gap else .idle
          k := 3, quiet := false, onAir := none } }
    | .idle | .gap | .countdown => s)

/-! ## The beacon timer (R3) -/

/-- R3: the timer is loaded with the period and a jitter of 0 to 3 ms. -/
def loadBeaconTimer (s : State) : State :=
  let d := drawBelow 4 s
  { d.2 with link := { d.2.link with beaconTimer := some (s.now + s.settings.beaconPeriod + d.1) } }

/-- R3, R4: the beacon becomes due, unless one is due already; its wait starts and the channel is asked for. -/
def beaconBecomesDue (s : State) : State :=
  if s.link.beaconDue.isSome then s
  else requestChannel (startDuration .backoffLong { s with link := { s.link with beaconDue := some s.now } })

/-- BEACON_TIMER_EXPIRY (R3). -/
def execBeaconTimerExpiry (s : State) : Host.Outcome State Fault Refusal :=
  .next (match s.link.beaconTimer with
    | none => s
    | some t => if t ≤ s.now then beaconBecomesDue (loadBeaconTimer s) else s)

/-! ## Expiries of the queue and the timers -/

/-- R8: the oldest CUE whose lateness expiry has come, and the queue without it. -/
def takeLate (limit now : Nat) : List QueuedFrame → Option (List QueuedFrame)
  | [] => none
  | .cue stamp id dest body :: rest =>
    if stamp + limit ≤ now then some rest else (takeLate limit now rest).map fun q => .cue stamp id dest body :: q
  | .report dest body :: rest => (takeLate limit now rest).map fun q => .report dest body :: q

/-- Table 1.3: in GAP with nothing left to send, IDLE is entered. -/
def gapWithoutWork (s : State) : State :=
  match s.link.access with
  | .gap => if s.link.wantsToSend then s else { s with link := { s.link with access := .idle } }
  | .idle | .countdown | .sending => s

/-- CUE_LATENESS_EXPIRY (R8): the CUE is removed, a CUE_LATE event that latches CUE_DROP (R123: the counters first). -/
def execCueLatenessExpiry (s : State) : Host.Outcome State Fault Refusal :=
  .next (match takeLate s.settings.cueLateness s.now s.link.queue with
    | none => s
    | some q => settle (latch 17 (tally .cueLate 1 (gapWithoutWork (setQueue q s)))))

/-- R16: the timer stops and the persistent cause holds. -/
def fallSilent (s : State) : State := { s with link := { s.link with silence := none, silent := true } }

/-- SILENCE_TIMER_EXPIRY (R16): LINK_SILENT is latched, the timer stops, and its persistent cause holds. -/
def execSilenceTimerExpiry (s : State) : Host.Outcome State Fault Refusal :=
  .next (match s.link.silence with
    | none => s
    | some t =>
      if s.settings.silenceTime ≤ s.now - t then settle (latch 3 (fallSilent s)) else s)

/-- OWN_ADDRESS_TIME_EXPIRY (R11): the own-address time passes 2000 ms and becomes none. -/
def execOwnAddressTimeExpiry (s : State) : Host.Outcome State Fault Refusal :=
  .next (match s.link.ownHeard with
    | none => s
    | some t =>
      if Config.ownAddressLimit < s.now - t then { s with link := { s.link with ownHeard := none } } else s)

/-! ## QUERY (R15) -/

/-- R15: the owner's judgement of a QUERY. -/
def ownQuery (source kind selector : Nat) (s : State) : State :=
  if s.motion.state = .start then refuse .query .wrongState source s
  else offerReport source (reportBody kind selector s) s

/-- QUERY (R15). -/
def execQuery (source target kind selector : Nat) (s : State) : Host.Outcome State Fault Refusal :=
  .next (settle (commandRow .query source target (ownQuery source kind selector) s))

/-! ## Reception (R10) -/

/-- R11: the own-address time is set to 0. -/
def hearOwn (s : State) : State := { s with link := { s.link with ownHeard := some s.now } }

/-- R11: a beacon with the own address. -/
def ownBeacon (s : State) : State := latch 2 (hearOwn s)

/-- R10: a valid BEACON. -/
def beaconFrameTaken (f : Frame) (s : State) : State :=
  if f.source = s.link.ownAddress then ownBeacon s
  else
    match stationKindOf (byteAt f.body 0) with
    | none => s
    | some k => takeBeacon f.source k f.body s

/-- R95, R188: a STOP by its scope. -/
def ownStop (scope zone : Nat) (s : State) : State :=
  match scope with
  | 0 => ownStopRide s
  | 1 => ownStopZone zone s
  | _ => s

/-- R62, R63, R188: a RETIRE by its form. -/
def ownRetire (form : Nat) (s : State) : State :=
  match form with
  | 1 => ownRetireImmediate s
  | 2 => ownRetireAtStation s
  | 3 => ownRetireLift s
  | _ => s

/-- R10: a valid frame is routed by its kind. -/
def route (f : Frame) (s : State) : State :=
  match f.kind with
  | 0 => beaconFrameTaken f s
  | 2 => command .stop f.source f.target (ownStop (byteAt f.body 0) (byteAt f.body 1)) s
  | 3 => command .resume f.source f.target (ownResume f.source) s
  | 4 => command .dispatch f.source f.target (ownDispatch f.source) s
  | 5 => command .unlock f.source f.target (ownUnlock f.source (f.body.getD 0 0)) s
  | 6 => command .clear f.source f.target (ownClear (BitVec.ofNat 32 (field4 f.body 0)) (f.body.getD 4 0)) s
  | 7 => command .retire f.source f.target (ownRetire (byteAt f.body 0)) s
  | 8 => command .forget f.source f.target (forgetPeer (byteAt f.body 0)) s
  | 9 => command .query f.source f.target (ownQuery f.source (byteAt f.body 0) (byteAt f.body 1)) s
  | 11 => command .restart f.source f.target (ownRestart f.source) s
  | _ => s

/-- R10: the frame whose carrier goes off is checked, and a valid one is routed; also where no CARRIER_ON stands before it
(log 48). -/
def receive (frame : List Byte) (s : State) : State :=
  let t := carrierOff s
  if !s.hears then t
  else
    match checkFrame frame with
    | none => badFrame t
    | some f => route f (validFrame t)

/-- RECEIVE_FRAME (R10). -/
def execReceiveFrame (frame : List Byte) (s : State) : Host.Outcome State Fault Refusal :=
  .next (settle (receive frame s))

end Sys2Proof.Machine
end

