-- ==== Sys2Proof/Machine/Loader.lean ====
section
/-! DEFINITION. The Show Flash Loader: the end of the image load (R183, R122, R143), FAULT (R184), the listen period and
the leaving of START (R185), and the commands CONFIG_BLOCK_READ, IMAGE_LOAD_END and LISTEN_EXPIRY. -/
namespace Sys2Proof.Machine

/-! ## Configured values (R122, R135, R143, R182) -/

/-- R182: an announcement clip that names no clip of the taken clip table becomes none. -/
def heldClip (clips : List (Option Clip)) (c : Option Nat) : Taken (Option Nat) :=
  match c with
  | none => { value := none, clamped := false }
  | some n => if ((clips[n]?).join).isSome then { value := c, clamped := false } else { value := none, clamped := true }

/-- R182: the stop and resume clips checked against the taken clip table. -/
def checkAnnouncements (clips : List (Option Clip)) (c : Settings) : Taken Settings :=
  { value := { c with stopClip := (heldClip clips c.stopClip).value, resumeClip := (heldClip clips c.resumeClip).value }
    clamped := (heldClip clips c.stopClip).clamped || (heldClip clips c.resumeClip).clamped }

/-- R122, R143: every condition that is not fixed takes its values. -/
def configureRecords (block : List Byte) (clips : List (Option Clip)) (rs : List Condition) : List Condition :=
  rs.zipIdx.map fun (c, i) =>
    if fixedCondition (i + 1) then c else Condition.configure (takeCondition block clips (i + 1)).value c

/-- R122: some value of a condition that is not fixed was changed. -/
def recordsClamped (block : List Byte) (clips : List (Option Clip)) : Bool :=
  (List.range 25).any fun i => !fixedCondition (i + 1) && (takeCondition block clips (i + 1)).clamped

/-- R143: the counters whose new configuration trips them, by number. -/
def configuredTrips (block : List Byte) (cs : List Counter) : List Nat :=
  (cs.zipIdx.filter fun (c, i) => configureTrips (i + 1) (takeCounter block (i + 1)).value c).map fun p => p.2 + 1

/-- R143: a counter that becomes chained is armed when counter 1 is tripped, and unarmed otherwise. -/
def armChained (old : List Counter) (cs : List Counter) : List Counter :=
  let first := ((cs[0]?).map Counter.tripped).getD false
  cs.zipIdx.map fun (c, i) =>
    if c.chained && !((old[i]?).map Counter.chained).getD false then { c with armed := first } else c

/-- R135, R143: the counters take their configuration; the trips it makes arm and freeze. -/
def configureCounters (block : List Byte) (u : ConditionUnit) : ConditionUnit :=
  let cs := u.counters.zipIdx.map fun (c, i) => Counter.configure (i + 1) (takeCounter block (i + 1)).value c
  let t := applyTrips (configuredTrips block u.counters) { u with counters := cs }
  { t with counters := armChained u.counters t.counters }

/-- R135: some value of a counter was changed. -/
def countersClamped (block : List Byte) : Bool := (List.range 4).any fun i => (takeCounter block (i + 1)).clamped

/-! ## The end of the image load (R183) -/

/-- CONFIG_CLAMPED is latched when something was clamped (log 29). -/
def latchClamped (clamped : Bool) (s : State) : State := if clamped then latch 1 s else s

/-- R183: the values of a staged block come into force, with the clip table that the load leaves. -/
def takeValues (st : Staged) (clips : List (Option Clip)) (s : State) : State :=
  { s with
    settings := st.settings
    link := { s.link with ownAddress := st.address }
    cond := configureCounters st.block
      { s.cond with records := configureRecords st.block clips s.cond.records } }

/-- R183, R143: the values come into force, their trips latch in counter order, and the level is handed on. -/
def configure (st : Staged) (clips : List (Option Clip)) (s : State) : State :=
  handLevel ((configuredTrips st.block s.cond.counters).foldl (fun a k => latch (19 + k) a) (takeValues st clips s))

/-- Whether a condition or counter value of a block is changed as it is taken. -/
def blockValuesClamped (st : Staged) (clips : List (Option Clip)) : Bool :=
  recordsClamped st.block clips || countersClamped st.block

/-- R183: what every end of a load does: the monitor's generators restart (R119) and the silence timer restarts (R16). -/
def loadEnds (s : State) : State := validFrame (restraintLoaded s)

/-- R3: the beacon becomes due at once and the timer is loaded. -/
def beaconAtOnce (s : State) : State := beaconBecomesDue (loadBeaconTimer s)

/-- R184: the load fails and FAULT is entered. -/
def loadFails (s : State) : State :=
  enter .fault { s with loader := { progress := .failed, listenExpiry := none, staged := none } }

/-- R184: FAULT is entered; with an own address the beacon becomes due and its timer runs. -/
def enterFault (s : State) : State :=
  if s.link.ownAddress = 0 then loadFails s else beaconAtOnce (loadFails s)

/-- R181, R184: a block that fails its check word: the values in force stay, and FAULT is entered. -/
def failedBlock (s : State) : State := enterFault (loadEnds s)

/-- R181, R182, R184: a load whose block passed and which takes no image. The clip table is empty (log 21). What
the values latch is latched before FAULT is entered (log 52). -/
def noImage (st : Staged) (s : State) : State :=
  enterFault (loadEnds (configure st (List.replicate 128 none)
    (latchClamped (blockValuesClamped st (List.replicate 128 none)) s)))

/-- R183: the records of a taken image. -/
def takeRecords (im : ImageRecords) (s : State) : State :=
  { s with
    route := some im.route
    cues := { s.cues with table := im.cues }
    sound := { s.sound with clips := im.clips } }

/-- R185: the listen period begins. -/
def beginListening (s : State) : State :=
  { s with loader := { progress := .listening, listenExpiry := some (s.now + s.settings.lostTime), staged := none } }

/-- R182, R183, R185: a passing image is taken and the listen period begins. -/
def withImage (st : Staged) (image : List Byte) (s : State) : State :=
  let im := takeImage image st.settings.flashSize st.address
  let an := checkAnnouncements im.value.clips st.settings
  beginListening (loadEnds (configure { st with settings := an.value } im.value.clips
    (takeRecords im.value (latchClamped (im.clamped || an.clamped || blockValuesClamped st im.value.clips) s))))

/-! ## The loader's commands -/

/-- R181: the values of a block wait for the end of the load. -/
def stage (st : Staged) (s : State) : State := { s with loader := { s.loader with staged := some st } }

/-- R181: a block that passes its check word is staged; station address 0 sends the part to FAULT. -/
def passedBlock (block : List Byte) (s : State) : State :=
  let b := takeBlock block
  let t := latchClamped b.clamped s
  if b.value.address = 0 then noImage b.value t else stage b.value t

/-- CONFIG_BLOCK_READ (R181): the load's first read is complete. -/
def execConfigBlockRead (block : List Byte) (s : State) : Host.Outcome State Fault Refusal :=
  .next (if s.loader.progress = .loading && !s.resetHeld && s.loader.staged.isNone then
      settle (if blockPasses block then passedBlock block s else failedBlock s)
    else s)

/-- IMAGE_LOAD_END (R182, R183): the load's second read is complete. -/
def execImageLoadEnd (image : List Byte) (s : State) : Host.Outcome State Fault Refusal :=
  .next (match s.loader.staged with
    | none => s
    | some st =>
      if s.loader.progress = .loading && !s.resetHeld then
        settle (if imagePasses image st.settings.bodyLength then withImage st image s else noImage st s)
      else s)

/-- R185, R53: the load progress becomes DONE and START is left for PARKED or STOPPED. -/
def listenEnds (s : State) : State :=
  enter (if s.tracker.atBerth then .parked else .stopped)
    { s with loader := { s.loader with progress := .done, listenExpiry := none } }

/-- R50: UNFIXED_START is latched when confidence is UNFIXED. -/
def unfixedStart (s : State) : State := if s.tracker.conf = .unfixed then latch 25 s else s

/-- R53, R50: START is left, UNFIXED_START is latched when unfixed, and level 7 goes on to ESTOP. Each entry is handed on
at once (R78), before READY is judged (log 51). -/
def leaveStart (s : State) : State := atOnce (applyLevel (unfixedStart (atOnce (listenEnds s))))

/-- LISTEN_EXPIRY (R185). -/
def execListenExpiry (s : State) : Host.Outcome State Fault Refusal :=
  .next (match s.loader.progress, s.loader.listenExpiry with
    | .listening, some t =>
      if t ≤ s.now && !s.resetHeld then settle (beaconAtOnce (leaveStart s)) else s
    | _, _ => s)

end Sys2Proof.Machine
end

