-- ==== Sys2Proof/Machine/Dispatch.lean ====
section
/-! DEFINITION. The meaning of each command: one arm per constructor of `Instr`, each one direct call. -/
namespace Sys2Proof.Machine

def exec (i : Instr) (s : State) : Host.Outcome State Fault Refusal :=
  match i with
  | .fullReset => Sys2Proof.Machine.execFullReset s
  | .configBlockRead block => Sys2Proof.Machine.execConfigBlockRead block s
  | .imageLoadEnd image => Sys2Proof.Machine.execImageLoadEnd image s
  | .listenExpiry => Sys2Proof.Machine.execListenExpiry s
  | .carrierOn => Sys2Proof.Machine.execCarrierOn s
  | .gapMet => Sys2Proof.Machine.execGapMet s
  | .countdownEnd => Sys2Proof.Machine.execCountdownEnd s
  | .transmissionEnd => Sys2Proof.Machine.execTransmissionEnd s
  | .beaconTimerExpiry => Sys2Proof.Machine.execBeaconTimerExpiry s
  | .cueLatenessExpiry => Sys2Proof.Machine.execCueLatenessExpiry s
  | .silenceTimerExpiry => Sys2Proof.Machine.execSilenceTimerExpiry s
  | .ownAddressTimeExpiry => Sys2Proof.Machine.execOwnAddressTimeExpiry s
  | .receiveFrame frame => Sys2Proof.Machine.execReceiveFrame frame s
  | .stopRide source => Sys2Proof.Machine.execStopRide source s
  | .stopZone source zone => Sys2Proof.Machine.execStopZone source zone s
  | .resume source target => Sys2Proof.Machine.execResume source target s
  | .dispatch source target => Sys2Proof.Machine.execDispatch source target s
  | .unlock source target seats => Sys2Proof.Machine.execUnlock source target seats s
  | .clear source target conditions options => Sys2Proof.Machine.execClear source target conditions options s
  | .retireImmediate source target => Sys2Proof.Machine.execRetireImmediate source target s
  | .retireAtStation source target => Sys2Proof.Machine.execRetireAtStation source target s
  | .retireLift source target => Sys2Proof.Machine.execRetireLift source target s
  | .forget source target address => Sys2Proof.Machine.execForget source target address s
  | .query source target kind selector => Sys2Proof.Machine.execQuery source target kind selector s
  | .restart source target => Sys2Proof.Machine.execRestart source target s
  | .peerStale address => Sys2Proof.Machine.execPeerStale address s
  | .peerLost address => Sys2Proof.Machine.execPeerLost address s
  | .odometryAdvance left right => Sys2Proof.Machine.execOdometryAdvance left right s
  | .markerReport code lateral complete => Sys2Proof.Machine.execMarkerReport code lateral complete s
  | .permitCompute => Sys2Proof.Machine.execPermitCompute s
  | .driveFault => Sys2Proof.Machine.execDriveFault s
  | .localStop => Sys2Proof.Machine.execLocalStop s
  | .claimIntervalEvaluation => Sys2Proof.Machine.execClaimIntervalEvaluation s
  | .windowEnd positions => Sys2Proof.Machine.execWindowEnd positions s
  | .unlockPulseExpiry seat => Sys2Proof.Machine.execUnlockPulseExpiry seat s
  | .durationThreshold event counter => Sys2Proof.Machine.execDurationThreshold event counter s
  | .pendingAdvance => Sys2Proof.Machine.execPendingAdvance s
  | .watchExpiry cue => Sys2Proof.Machine.execWatchExpiry cue s
  | .outputFrame => Sys2Proof.Machine.execOutputFrame s
  | .fetchComplete samples => Sys2Proof.Machine.execFetchComplete samples s
  | .fetchTimeout => Sys2Proof.Machine.execFetchTimeout s
  | .waitExpiry voice => Sys2Proof.Machine.execWaitExpiry voice s
  | .fullResetEnd => Sys2Proof.Machine.execFullResetEnd s
  | .driveFaultInputReleased => Sys2Proof.Machine.execDriveFaultInputReleased s
  | .localStopInputReleased => Sys2Proof.Machine.execLocalStopInputReleased s
  | .lineTestSample returns => Sys2Proof.Machine.execLineTestSample returns s

end Sys2Proof.Machine
end

