-- ==== Sys2Proof/Machine/Step.lean ====
section
/-! DEFINITION. One step: the command at the front of the queue is taken (log 1). -/
namespace Sys2Proof.Machine

/-- One step. On an empty queue the part idles (log 1). -/
def step (s : State) : Host.Outcome State Fault Refusal :=
  match s.pending with
  | [] => .next s
  | c :: rest => exec c { s with pending := rest }

/-- A command put at the front of the queue. -/
def State.withCommand (s : State) (c : Instr) : State := { s with pending := c :: s.pending }

/-- The command that a word of the table spells, at the front of the queue; no row gives bits (log 27). -/
def State.withFetchWord (s : State) (nbits w : Nat) : State :=
  match decodeTableWord nbits w with
  | none => s
  | some c => s.withCommand c

end Sys2Proof.Machine
end

