-- ==== Sys2Proof/Safety.lean ====
section
/-! DEFINITION. What every step keeps: the invariants of the part, block by block, and the two forms in which they are
stated. -/
namespace Sys2Proof.Safety
open Sys2Proof.Machine

/-- Every step that answers a next state keeps an invariant. -/
def Kept (inv : State → Prop) : Prop := ∀ s t : State, inv s → step s = .next t → inv t

/-- R6: every CUE stands ahead of every REPORT. -/
def cuesFirst (q : List QueuedFrame) : Prop := q.filter QueuedFrame.isCue ++ q.filter (fun f => !f.isCue) = q

/-- Table 1.1: the ranges of the Link Controller's state, the order of the queue (R6), and a transmission exactly while
SENDING (R2). -/
structure LinkOk (s : State) : Prop where
  kLow : 3 ≤ s.link.k
  kHigh : s.link.k ≤ 6
  slots : s.link.slots ≤ 63
  queueLength : s.link.queue.length ≤ 8
  queueOrder : cuesFirst s.link.queue
  onAir : s.link.onAir.isSome ↔ s.link.access = .sending
  address : s.link.ownAddress ≤ 31
  staged : ∀ st, s.loader.staged = some st → st.address ≤ 31

/-- R80, R97: at most two entries, for different zones, and none while confidence is UNFIXED. -/
structure ClaimsOk (s : State) : Prop where
  atMostTwo : s.claims.length ≤ 2
  distinct : (s.claims.map Claim.zone).Nodup
  unfixed : s.tracker.conf = .unfixed → s.claims = []

/-- R18, R30: 31 records, all EMPTY during the image load, and the own record EMPTY at all times. -/
structure PeersOk (s : State) : Prop where
  count : s.peers.length = 31
  loading : s.loading = true → ∀ a, s.peer a = none
  own : s.peer s.link.ownAddress = none

/-- R38, R99, R121, R135, R147, R161, R162: the fixed sizes of the part's tables; and the fixed levels and responses of
conditions 2 and 8 to 12 (R122, Table 7.2). -/
structure TablesOk (s : State) : Prop where
  history : s.tracker.history.length = 10
  lines : s.restraint.lines.length = 12
  seats : s.restraint.seats.length = 6
  records : s.cond.records.length = 25
  counters : s.cond.counters.length = 4
  waiting : s.cues.waiting.length ≤ 16
  clips : s.sound.clips.length = 128
  voices : s.sound.voices.length = 8
  fixed : ∀ id, fixedCondition id = true →
    ∃ c, s.cond.record id = some c ∧ c.level = defaultLevels.getD (id - 1) 0 ∧ c.announceFirst = false

/-! ## What the shared operations leave alone -/

/-- A seat without its solenoid and pulse, the two items that a withdrawal changes (R116). -/
def bareSeat (q : Seat) : Seat := { q with solenoid := false, pulse := none }

/-- Occurrences, tally arrivals, announcements, cue occurrences and the handing on of motion state entries change the
Condition Unit, the motion state with its notices and announcement flags, solenoids and pulses, the pending cues and
fired markers, and the voices; they may end the read in progress, and a read granted meanwhile has its timeout 2 ms from
now (R167). Everything else is the same in `t` as in `s`. -/
structure SameOutside (s t : State) : Prop where
  pending : t.pending = s.pending
  now : t.now = s.now
  resetHeld : t.resetHeld = s.resetHeld
  driveFaultIn : t.driveFaultIn = s.driveFaultIn
  localStopIn : t.localStopIn = s.localStopIn
  settings : t.settings = s.settings
  link : t.link = s.link
  peers : t.peers = s.peers
  route : t.route = s.route
  tracker : t.tracker = s.tracker
  claims : t.claims = s.claims
  loader : t.loader = s.loader
  running : t.restraint.running = s.restraint.running
  n : t.restraint.n = s.restraint.n
  fill : t.restraint.fill = s.restraint.fill
  lines : t.restraint.lines = s.restraint.lines
  seats : t.restraint.seats = s.restraint.seats ∨ t.restraint.seats = s.restraint.seats.map bareSeat
  dPrev : t.motion.dPrev = s.motion.dPrev
  immediate : t.motion.immediate = s.motion.immediate
  atStation : t.motion.atStation = s.motion.atStation
  record : t.motion.record = s.motion.record
  clips : t.sound.clips = s.sound.clips
  out : t.sound.out = s.sound.out
  read : t.sound.read = s.sound.read ∨ t.sound.read = none ∨ ∃ q, t.sound.read = some q ∧ q.timeout = s.now + 2

/-- What the same operations never take back in a condition's record: its latched flag, its count (R127), and its
configuration. -/
structure RecordGrows (c d : Condition) : Prop where
  latched : c.latched = true → d.latched = true
  escalated : c.escalated = true → d.escalated = true
  level : d.level = c.level
  announceFirst : d.announceFirst = c.announceFirst
  count : d.count = c.count
  clip : d.clip = c.clip
  remaining : d.remaining ≤ c.remaining

/-- What the same operations never take back in a counter: its trip, its arming, and its configuration (R135, R138). -/
structure CounterGrows (c d : Counter) : Prop where
  config : d = { c with value := d.value, tripped := d.tripped, armed := d.armed }
  tripped : c.tripped = true → d.tripped = true
  armed : c.armed = true → d.armed = true

/-- What the same operations never take back in the Condition Unit: flags and escalations stay, a filled first-fault
record stays (R133), frozen stays. -/
structure CondGrows (u v : ConditionUnit) : Prop where
  length : v.records.length = u.records.length
  records : ∀ (i : Nat) (c : Condition), u.records[i]? = some c → ∃ d, v.records[i]? = some d ∧ RecordGrows c d
  firstFault : ∀ f, u.firstFault = some f → v.firstFault = some f
  frozen : u.frozen = true → v.frozen = true
  counters : ∀ (i : Nat) (c : Counter), u.counters[i]? = some c → ∃ d, v.counters[i]? = some d ∧ CounterGrows c d

/-- The tables keep their sizes, and the pending list its bound (R147). -/
structure SameSizes (s t : State) : Prop where
  counters : t.cond.counters.length = s.cond.counters.length
  table : t.cues.table.length = s.cues.table.length
  waiting : s.cues.waiting.length ≤ 16 → t.cues.waiting.length ≤ 16
  voices : t.sound.voices.length = s.sound.voices.length

/-- All that the shared operations may do: what lies outside is the same, the Condition Unit only grows, START and FAULT
are neither entered nor left (R58, Table 4.5), ESTOP stands while the level is 7 (R59), STOPPING is left for ESTOP alone,
and RUNNING and HOLDING are not entered (Table 4.4). -/
structure Aside (s t : State) : Prop where
  outside : SameOutside s t
  grows : CondGrows s.cond t.cond
  sizes : SameSizes s t
  start : t.motion.state = .start ↔ s.motion.state = .start
  fault : t.motion.state = .fault ↔ s.motion.state = .fault
  estop : s.motion.state = .estop → 7 ≤ s.level → t.motion.state = .estop
  stopping : s.motion.state = .stopping → t.motion.state = .stopping ∨ (t.motion.state = .estop ∧ 7 ≤ t.level)
  moving : t.motion.state = .running ∨ t.motion.state = .holding → s.motion.state = t.motion.state

/-- Nothing is outstanding: no entry waits to be handed on, no standing judgement changes the motion state (R54 to
R56), and the arbiter has nothing to grant (R167). Every command ends so (log 6). -/
structure Still (s : State) : Prop where
  notices : s.motion.notices = []
  judged : judgeStanding s = s
  granted : arbitrate s = s

/-- The levels at which a motion state may stand (R54, R58, R59, Table 4.5). -/
def Stands (level : Nat) : MotionState → Prop
  | .start | .fault | .estop => True
  | .parked | .stopping | .stopped => level ≤ 6
  | .running | .holding => level ≤ 5
  | .ready => level ≤ 2

/-- R128: the level last handed on is the level; R58, R59: the motion state may stand at it. -/
structure LevelOk (s : State) : Prop where
  handed : s.cond.handed = s.level
  stands : Stands s.level s.motion.state

/-- Condition `id` is latched. -/
def Latched (s : State) (id : Nat) : Prop := ∃ c, s.cond.record id = some c ∧ c.latched = true

/-! ## Reception of commands -/

/-- R10, R16: the state in which a valid frame is judged: carrier detect is off and the silence timer restarted. -/
def received (s : State) : State := validFrame (carrierOff s)

/-- R10, R12, R13: a command of this kind from this source to this target reaches its owner: the frame is heard, its
source is a station address, the target check takes it, and the source has authority. -/
structure Accepted (s : State) (kind : CommandKind) (source target : Nat) : Prop where
  heard : s.hears = true
  low : 1 ≤ source
  high : source ≤ 31
  mine : targetTaken kind s.link.ownAddress target = true
  allowed : authority kind source s = none

/-- The kind, source and target of a command row; STOP carries no target (Table 1.5, R188). -/
def commandHeader : Instr → Option (CommandKind × Nat × Nat)
  | .stopRide source => some (.stop, source, 0)
  | .stopZone source _ => some (.stop, source, 0)
  | .resume source target => some (.resume, source, target)
  | .dispatch source target => some (.dispatch, source, target)
  | .unlock source target _ => some (.unlock, source, target)
  | .clear source target _ _ => some (.clear, source, target)
  | .retireImmediate source target => some (.retire, source, target)
  | .retireAtStation source target => some (.retire, source, target)
  | .retireLift source target => some (.retire, source, target)
  | .forget source target _ => some (.forget, source, target)
  | .query source target _ _ => some (.query, source, target)
  | .restart source target => some (.restart, source, target)
  | _ => none

/-- The frame of a command row (Tables 11.1 and 11.2, R187). -/
def commandFrame : Instr → Option (List Byte)
  | .stopRide source => some (frameOf 2 source 0 [0, 0])
  | .stopZone source zone => some (frameOf 2 source 0 [1, byteOf zone])
  | .resume source target => some (frameOf 3 source target [])
  | .dispatch source target => some (frameOf 4 source target [])
  | .unlock source target seats => some (frameOf 5 source target [seats])
  | .clear source target conditions options =>
    some (frameOf 6 source target (bytes4 conditions.toNat ++ [options]))
  | .retireImmediate source target => some (frameOf 7 source target [1])
  | .retireAtStation source target => some (frameOf 7 source target [2])
  | .retireLift source target => some (frameOf 7 source target [3])
  | .forget source target address => some (frameOf 8 source target [byteOf address])
  | .query source target kind selector => some (frameOf 9 source target [byteOf kind, byteOf selector])
  | .restart source target => some (frameOf 11 source target [])
  | _ => none

/-! ## Conditions under which an event has no side effects -/

/-- No enabled cue waits for an entry into this motion state (R150). -/
def noMotionCue (s : State) (st : MotionState) : Prop := cuesWhere (fun t => t = .motion st.code) s = []

/-- The place of the beacon's wait among the running duration events (R4, R137). -/
def freshDuration (key : DurationKey) (s : State) : Duration :=
  { key := key, start := s.now, passed := List.replicate 4 false }

end Sys2Proof.Safety
end

