-- ==== Sys2Proof/WellFormed.lean ====
section
/-! DEFINITION. Which commands are well formed: every operand within the range its field has (Tables 0.3, 11.1 and
11.2; log 32). The meanings are total on ill-formed commands too. -/
namespace Sys2Proof

/-- A station address as a frame carries it (Table 11.1: source 1–31, R10). -/
def wfSource (source : Nat) : Bool := 1 ≤ source && source ≤ 31

/-- A byte field of a frame. -/
def wfByte (v : Nat) : Bool := v ≤ 255

/-- A running event names a seat 1–6. -/
def wfDuration : DurationKey → Bool
  | .holdLong => true
  | .backoffLong => true
  | .barCreep seat => 1 ≤ seat && seat ≤ 6

/-- The well-formed commands. -/
def Instr.wf : Instr → Bool
  | .configBlockRead block => block.length == 256
  | .stopRide source => wfSource source
  | .stopZone source zone => wfSource source && wfByte zone
  | .resume source target | .dispatch source target | .unlock source target _ | .clear source target _ _
  | .retireImmediate source target | .retireAtStation source target | .retireLift source target
  | .restart source target => wfSource source && wfByte target
  | .forget source target address => wfSource source && wfByte target && wfByte address
  | .query source target kind selector => wfSource source && wfByte target && wfByte kind && wfByte selector
  | .peerStale address | .peerLost address => wfSource address
  | .windowEnd positions => positions.length == 6
  | .unlockPulseExpiry seat => 1 ≤ seat && seat ≤ 6
  | .durationThreshold event counter => wfDuration event && 1 ≤ counter && counter ≤ 4
  | .watchExpiry cue => cue ≤ 255
  | .fetchComplete read => read.voice ≤ 7 && read.samples.length ≤ 256
  | .waitExpiry voice => voice ≤ 7
  | .fullReset | .imageLoadEnd _ | .listenExpiry | .carrierOn | .gapMet | .countdownEnd | .transmissionEnd
  | .beaconTimerExpiry | .cueLatenessExpiry | .silenceTimerExpiry | .ownAddressTimeExpiry | .receiveFrame _
  | .odometryAdvance _ _ | .markerReport _ _ _ | .permitCompute | .driveFault | .localStop
  | .claimIntervalEvaluation | .pendingAdvance | .outputFrame | .fetchTimeout | .fullResetEnd
  | .driveFaultInputReleased | .localStopInputReleased | .lineTestSample _ => true

end Sys2Proof
end

