-- ==== Sys2Proof/Certificates/Slice0/Obligations.lean ====
section
/-! DEFINITION. The statements for the provers. A statement about a command says, for every state and operands that meet
its hypotheses, that `exec` answers a next state and what that state holds. Where an event may latch conditions, trip
counters, fire cues or steal a voice, `Aside` names the state before these side effects and says that everything outside
them is as it was there; `Still` (R54 to R56, R167) is kept by every step (`StillKept`) and makes a command without side
effects exact. -/
section
open Sys2Proof Sys2Proof.Machine Sys2Proof.Safety

/-! ## Steps and reset -/

/-- A step runs the command at the front of the queue with the queue's rest; on an empty queue the part idles (log 1). -/
def Obligations.StepTakesFront : Prop :=
  (∀ (c : Instr) (rest : List Instr) (s : State), s.pending = c :: rest → step s = exec c { s with pending := rest })
  ∧ (∀ (c : Instr) (s : State), step (s.withCommand c) = exec c s)
  ∧ (∀ s : State, s.pending = [] → step s = .next s)

/-- R17, R30, R51, R79, R98, R119, R142, R160, R179, R180: the machine right after a full reset. -/
def Obligations.ResetState : Prop :=
  let s := State.reset
  (s.motion.state = .start ∧ s.brakeLine = true ∧ s.motion.dPrev = 0 ∧ s.motion.immediate = false
    ∧ s.motion.atStation = false ∧ s.motion.stopVoice = false ∧ s.motion.resumeVoice = false)
  ∧ (s.link.access = .idle ∧ s.link.k = 3 ∧ s.link.queue = [] ∧ s.link.beaconTimer = none ∧ s.link.beaconDue = none
    ∧ s.link.seq = 0 ∧ s.link.lastRefusal = none ∧ s.link.ownHeard = none ∧ s.link.silence = none
    ∧ s.link.silent = false ∧ s.link.onAir = none ∧ s.link.ownAddress = 0)
  ∧ ((∀ a, s.peer a = none) ∧ s.route = none ∧ s.claims = [])
  ∧ (s.tracker.pos = 0 ∧ s.tracker.conf = .unfixed ∧ s.tracker.expected = none ∧ s.tracker.misses = 0 ∧ s.speed = 0
    ∧ s.tracker.retrace = 0 ∧ s.tracker.lateral = 0 ∧ s.sinceMm = 65535 ∧ s.tracker.armed = false
    ∧ s.tracker.atBerth = false ∧ s.tracker.lap = 0)
  ∧ (s.restraint.running = false ∧ s.restraint.seats.length = 6
    ∧ ∀ q ∈ s.restraint.seats, q.state = .opened ∧ q.code = none ∧ q.reference = none ∧ q.solenoid = false ∧ q.pulse = none)
  ∧ (s.level = 0 ∧ s.cond.firstFault = none ∧ s.cond.frozen = false ∧ s.cond.durations = []
    ∧ (∀ c ∈ s.cond.records, c.latched = false ∧ c.escalated = false ∧ c.announcement = .none)
    ∧ ∀ c ∈ s.cond.counters, c.value = 0 ∧ c.tripped = false ∧ c.armed = false)
  ∧ (s.cues.table = [] ∧ s.cues.waiting = [])
  ∧ ((∀ v ∈ s.sound.voices, v.state = .idle) ∧ (∀ c ∈ s.sound.clips, c = none) ∧ s.sound.read = none
    ∧ s.sound.out = [0, 0, 0, 0])
  ∧ s.loader.progress = .loading ∧ s.resetHeld = false ∧ s.pending = []

/-- Every invariant stated below holds right after reset. -/
def Obligations.InvariantsAtReset : Prop :=
  LinkOk State.reset ∧ ClaimsOk State.reset ∧ PeersOk State.reset ∧ TablesOk State.reset ∧ Still State.reset
    ∧ LevelOk State.reset

/-! ## What every step keeps -/

/-- Table 1.1, R1, R2, R6. -/
def Obligations.LinkKept : Prop := Kept LinkOk

/-- R80, R97. -/
def Obligations.ClaimsKept : Prop := Kept ClaimsOk

/-- R18, R30. -/
def Obligations.PeersKept : Prop := Kept PeersOk

/-- R38, R99, R121, R122, R135, R147, R161, R162. -/
def Obligations.TablesKept : Prop := Kept TablesOk

/-- R54 to R56, R78, R167 (log 6): after every step no motion state entry waits, no standing judgement is left to make,
and the fetch arbiter has nothing to grant. -/
def Obligations.StillKept : Prop := Kept Still

/-- R58, R59, R128: after every step the level has been handed on, and the motion state may stand at it: no vehicle in
READY above level 2, in RUNNING or HOLDING above level 5, in PARKED, STOPPING or STOPPED at level 7. -/
def Obligations.LevelKept : Prop := Kept LevelOk

/-! ## Resets and start-up -/

/-- R180: FULL_RESET puts every block to its full-reset values; its end starts the load and finds the stop inputs (R76).
Where the rule says nothing the next state is the model's choice: the waiting commands stay (log 1), the free draws are
not taken back (log 4), the carrier line's marks stay as the line stands outside (log 8), the two stop inputs' lines are
kept and the wheel counts are 0 (log 10), and the reset is a held input that FULL_RESET_END releases (log 11). -/
def Obligations.FullResetTaken : Prop :=
  (∀ s : State, exec .fullReset s = .next
    { State.reset with
      pending := s.pending, draws := s.draws, resetHeld := true
      driveFaultIn := s.driveFaultIn, localStopIn := s.localStopIn
      link := { Link.reset with carrier := s.link.carrier, quiet := s.link.quiet, frameLost := s.link.carrier } })
  ∧ (∀ s : State, s.resetHeld = true → TablesOk s → ∃ t, exec .fullResetEnd s = .next t
      ∧ Aside { s with resetHeld := false } t
      ∧ (s.driveFaultIn = true → Latched t 9) ∧ (s.localStopIn = true → Latched t 10))
  ∧ (∀ s : State, s.resetHeld = true → s.loader.progress = .loading → s.driveFaultIn = false → s.localStopIn = false →
      Still s → exec .fullResetEnd s = .next { s with resetHeld := false })
  ∧ (∀ s : State, s.resetHeld = false → exec .fullResetEnd s = .next s)

/-- R186: RESTART is taken at rest in PARKED, STOPPED, ESTOP and FAULT: START, every block at its show-restart values,
and what a show restart keeps. It is refused with MOVING above speed 0, else with WRONG_STATE. -/
def Obligations.RestartJudged : Prop :=
  ∀ (s : State) (source target : Nat), Accepted s .restart source target → Still s →
    (s.speed = 0 →
      s.motion.state = .parked ∨ s.motion.state = .stopped ∨ s.motion.state = .estop ∨ s.motion.state = .fault →
      ∃ t, exec (.restart source target) s = .next t
        ∧ (t.motion.state = .start ∧ t.brakeLine = true ∧ t.motion.dPrev = 0 ∧ t.motion.immediate = false
          ∧ t.motion.atStation = false ∧ t.motion.stopVoice = false ∧ t.motion.resumeVoice = false)
        ∧ (t.loader.progress = .loading ∧ t.route = none ∧ (∀ a, t.peer a = none) ∧ t.claims = [])
        ∧ (t.tracker = { Tracker.reset with lap := s.tracker.lap, odoL := s.tracker.odoL, odoR := s.tracker.odoR })
        ∧ (t.link.access = .idle ∧ t.link.k = 3 ∧ t.link.queue = [] ∧ t.link.beaconTimer = none ∧ t.link.beaconDue = none
          ∧ t.link.lastRefusal = none ∧ t.link.silence = none ∧ t.link.silent = false ∧ t.link.seq = s.link.seq
          ∧ t.link.ownAddress = s.link.ownAddress ∧ t.link.ownHeard = s.link.ownHeard)
        ∧ (t.cues.table = [] ∧ t.cues.waiting = [] ∧ t.sound.clips = List.replicate 128 none
          ∧ t.sound.voices = List.replicate 8 Voice.idle ∧ t.sound.read = none)
        ∧ (t.restraint.running = false ∧ t.restraint.seats = List.replicate 6 Seat.reset
          ∧ t.restraint.lines.map (fun l => (l.mismatches, l.capture))
            = s.restraint.lines.map (fun l => (l.mismatches, l.capture)))
        ∧ (t.cond = { s.cond with records := s.cond.records.map fun c => { c with announcement := .none }, durations := [] }
          ∧ t.settings = s.settings ∧ t.now = s.now))
    ∧ (0 < s.speed → exec (.restart source target) s = .next (refuse .restart .moving source (received s)))
    ∧ (s.speed = 0 →
      s.motion.state = .start ∨ s.motion.state = .ready ∨ s.motion.state = .running ∨ s.motion.state = .holding
        ∨ s.motion.state = .stopping →
      exec (.restart source target) s = .next (refuse .restart .wrongState source (received s)))

/-- R181, R184: CONFIG_BLOCK_READ. A block whose check word fails: no value is taken and FAULT is entered; with an own
address the beacon becomes due and its timer is loaded. A block that passes with a station address is staged: it comes
into force at the end of the load, not before; each clamp latches CONFIG_CLAMPED (log 29). With station address 0 the
load ends in FAULT with the block's values, those of its conditions (clips against an empty table, log 21) and counters
among them (R122, R135, R143). -/
def Obligations.ConfigBlockJudged : Prop :=
  ∀ (s : State) (block : List Byte), s.loader.progress = .loading → s.resetHeld = false → s.loader.staged = none →
    (blockPasses block = false → ∃ t, exec (.configBlockRead block) s = .next t
      ∧ t.motion.state = .fault ∧ t.brakeLine = true
      ∧ t.loader = { progress := .failed, listenExpiry := none, staged := none }
      ∧ t.settings = s.settings ∧ t.link.ownAddress = s.link.ownAddress ∧ t.route = s.route ∧ t.peers = s.peers
      ∧ t.tracker = s.tracker ∧ t.claims = s.claims ∧ t.now = s.now ∧ t.link.queue = s.link.queue
      ∧ t.restraint.running = true ∧ t.restraint.n = 0 ∧ t.link.silence = some s.now ∧ t.link.silent = false
      ∧ CondGrows s.cond t.cond
      ∧ (s.link.ownAddress = 0 → t.link.beaconTimer = s.link.beaconTimer ∧ t.link.beaconDue = s.link.beaconDue)
      ∧ (s.link.ownAddress ≠ 0 → t.link.beaconDue.isSome = true
        ∧ ∃ j, j ≤ 3 ∧ t.link.beaconTimer = some (s.now + s.settings.beaconPeriod + j)))
    ∧ (blockPasses block = true → TablesOk s → ∃ t, exec (.configBlockRead block) s = .next t
      ∧ ((takeBlock block).clamped = true → Latched t 1)
      ∧ ((takeBlock block).value.address ≠ 0 →
        Aside { s with loader := { s.loader with staged := some (takeBlock block).value } } t)
      ∧ ((takeBlock block).value.address = 0 →
        t.motion.state = .fault ∧ t.brakeLine = true
        ∧ t.loader = { progress := .failed, listenExpiry := none, staged := none }
        ∧ t.settings = (takeBlock block).value.settings ∧ t.link.ownAddress = 0
        ∧ t.route = s.route ∧ t.peers = s.peers ∧ t.tracker = s.tracker ∧ t.claims = s.claims
        ∧ t.link.beaconTimer = s.link.beaconTimer ∧ t.link.beaconDue = s.link.beaconDue
        ∧ t.restraint.running = true ∧ t.link.silence = some s.now
        ∧ (∀ id c, 1 ≤ id → id ≤ 25 → s.cond.record id = some c → ∃ d, t.cond.record id = some d
          ∧ (c.latched = true → d.latched = true)
          ∧ (fixedCondition id = true →
            d.level = c.level ∧ d.announceFirst = c.announceFirst ∧ d.count = c.count ∧ d.clip = c.clip)
          ∧ (fixedCondition id = false →
            let q := (takeCondition block (List.replicate 128 none) id).value
            d.level = q.level ∧ d.announceFirst = q.announceFirst ∧ d.count = q.count ∧ d.clip = q.clip))
        ∧ (∀ k c, 1 ≤ k → k ≤ 4 → s.cond.counters[k - 1]? = some c → ∃ d, t.cond.counters[k - 1]? = some d
          ∧ d = { (takeCounter block k).value with value := d.value, tripped := d.tripped, armed := d.armed }
          ∧ (s.motion.state = .start → Still s →
            (s.cues.table = [] → d.value = min d.limit (max d.preset c.value))
            ∧ (d.limit ≤ max d.preset c.value → c.tripped = false → (k ≠ 1 ∨ d.event ≠ .none) →
              d.tripped = true ∧ Latched t (19 + k))))
        ∧ (s.cond.frozen = true → t.cond.frozen = true)))

/-- R181, Table 10.2: whatever the block holds, every value taken lies in its range. -/
def Obligations.ConfigValuesInRange : Prop :=
  ∀ block : List Byte, let t := (takeBlock block).value; let v := t.settings
    t.address ≤ 31
    ∧ (65536 ≤ v.flashSize ∧ v.flashSize ≤ 67108864 ∧ v.flashSize % 65536 = 0)
    ∧ (20 ≤ v.beaconPeriod ∧ v.beaconPeriod ≤ 100) ∧ (200 ≤ v.silenceTime ∧ v.silenceTime ≤ 5000)
    ∧ (20 ≤ v.cueLateness ∧ v.cueLateness ≤ 500) ∧ (60 ≤ v.staleTime ∧ v.staleTime ≤ 1000)
    ∧ (300 ≤ v.lostTime ∧ v.lostTime ≤ 5000) ∧ (100 ≤ v.odoScale ∧ v.odoScale ≤ 10000)
    ∧ (1000 ≤ v.bodyLength ∧ v.bodyLength ≤ 6000) ∧ (5 ≤ v.berthTolerance ∧ v.berthTolerance ≤ 100)
    ∧ (200 ≤ v.margin ∧ v.margin ≤ 5000) ∧ (200 ≤ v.decel ∧ v.decel ≤ 2000) ∧ (100 ≤ v.accel ∧ v.accel ≤ 1500)
    ∧ (100 ≤ v.slow ∧ v.slow ≤ 1000) ∧ v.lateralGain ≤ 255 ∧ (500 ≤ v.fadeDistance ∧ v.fadeDistance ≤ 5000)
    ∧ (100 ≤ v.curvatureLimit ∧ v.curvatureLimit ≤ 2000)
    ∧ (∀ c, v.stopClip = some c → c ≤ 127) ∧ (∀ c, v.resumeClip = some c → c ≤ 127)
    ∧ (2000 ≤ v.claimDistance ∧ v.claimDistance ≤ 20000) ∧ (50 ≤ v.settleTime ∧ v.settleTime ≤ 500)
    ∧ (1 ≤ v.seatCount ∧ v.seatCount ≤ 6) ∧ v.fixedPattern ≠ 0
    ∧ (300 ≤ v.verifyTime ∧ v.verifyTime ≤ 3000) ∧ (200 ≤ v.unlockPulse ∧ v.unlockPulse ≤ 2000)
    ∧ (100 ≤ v.lockMinimum ∧ v.lockMinimum ≤ 250) ∧ (1 ≤ v.creepLimit ∧ v.creepLimit ≤ 31)
    ∧ (v.resync = 0 ∨ (200 ≤ v.resync ∧ v.resync ≤ 5000))

/-- R182, R183, R185, R122, R135, R143: a passing image is taken: its records come into force with the values of the
block, conditions and counters among them, and the listen period begins. A counter whose value then stands at its limit
trips, but for counter 1 with event 0 (R138; log 35). Then the values that a block gives a condition and a counter. -/
def Obligations.ImageTaken : Prop :=
  (∀ (s : State) (image : List Byte) (st : Staged), s.loader.staged = some st → s.loader.progress = .loading →
    s.resetHeld = false → s.motion.state = .start → Still s → TablesOk s →
    imagePasses image st.settings.bodyLength = true →
    let im := takeImage image st.settings.flashSize st.address
    let an := checkAnnouncements im.value.clips st.settings
    ∃ t, exec (.imageLoadEnd image) s = .next t
      ∧ t.motion.state = .start
      ∧ t.loader = { progress := .listening, listenExpiry := some (s.now + st.settings.lostTime), staged := none }
      ∧ t.route = some im.value.route ∧ t.cues.table = im.value.cues ∧ t.sound.clips = im.value.clips
      ∧ t.settings = an.value ∧ t.link.ownAddress = st.address
      ∧ t.link.silence = some s.now ∧ t.link.silent = false ∧ t.link.queue = s.link.queue
      ∧ t.restraint.running = true ∧ t.restraint.n = 0 ∧ t.restraint.fill = 0
      ∧ (∀ i q, s.restraint.seats[i]? = some q →
          t.restraint.seats[i]? = some (if st.settings.seatCount ≤ i then { q with state := .unused } else q))
      ∧ t.peers = s.peers ∧ t.tracker = s.tracker ∧ t.claims = s.claims ∧ t.now = s.now
      ∧ (im.clamped = true ∨ an.clamped = true ∨ blockValuesClamped st im.value.clips = true → Latched t 1)
      ∧ (∀ id c, 1 ≤ id → id ≤ 25 → s.cond.record id = some c → ∃ d, t.cond.record id = some d
        ∧ (c.latched = true → d.latched = true)
        ∧ (fixedCondition id = true → d = { c with latched := d.latched })
        ∧ (fixedCondition id = false →
          let q := (takeCondition st.block im.value.clips id).value
          (c.announceFirst = q.announceFirst → c.count = q.count →
            d = { c with latched := d.latched, level := q.level, clip := q.clip })
          ∧ (c.announceFirst ≠ q.announceFirst ∨ c.count ≠ q.count →
            d = { c with
              latched := d.latched, level := q.level, announceFirst := q.announceFirst, count := q.count
              remaining := q.count, escalated := false, clip := q.clip })))
      ∧ (∀ k c first, 1 ≤ k → k ≤ 4 → s.cond.counters[k - 1]? = some c → s.cond.counters[0]? = some first →
        let q := (takeCounter st.block k).value
        let value := min q.limit (max q.preset c.value)
        ∃ d dOne, t.cond.counters[k - 1]? = some d ∧ t.cond.counters[0]? = some dOne
          ∧ d = { q with value := value, tripped := d.tripped, armed := d.armed }
          ∧ (d.tripped = true ↔ q.limit ≤ value ∧ (c.tripped = true ∨ k ≠ 1 ∨ q.event ≠ .none))
          ∧ (d.tripped = true → c.tripped = false → Latched t (19 + k) ∧ (q.freeze = true → t.cond.frozen = true))
          ∧ (q.chained = true → c.chained = false → d.armed = dOne.tripped)
          ∧ (q.chained = true → c.chained = true →
            d.armed = (c.armed || (dOne.tripped && !first.tripped)))
          ∧ (q.chained = false → d.armed = c.armed))
      ∧ (s.cond.frozen = true → t.cond.frozen = true))
  ∧ (∀ (block : List Byte) (clips : List (Option Clip)) (id : Nat),
    let q := (takeCondition block clips id).value
    (levelByte block id = none → q.level = defaultLevels.getD (id - 1) 1)
    ∧ (∀ v, levelByte block id = some v → q.level = max (levelFloors.getD (id - 1) 1) (min 7 v))
    ∧ (q.announceFirst = true ↔ ∃ b, given8 block (conditionOffset id + 1) = some b ∧ 128 ≤ b ∧ q.level ≤ 5)
    ∧ (∀ b, q.announceFirst = true → given8 block (conditionOffset id + 1) = some b → q.count = max 1 (min 7 (b - 128)))
    ∧ (q.announceFirst = false → q.count = 0 ∧ q.clip = none)
    ∧ (∀ n, q.clip = some n ↔ q.announceFirst = true ∧ given8 block (conditionOffset id + 2) = some n
      ∧ ∃ c, clips[n]? = some (some c)))
  ∧ (∀ (block : List Byte) (k : Nat),
    let q := (takeCounter block k).value
    let o := counterOffset k
    (given16 block (o + 8) = none → q.limit = 65535)
    ∧ (∀ v, given16 block (o + 8) = some v → q.limit = max 1 v)
    ∧ q.preset = min (q.limit - 1) ((given16 block (o + 6)).getD 0)
    ∧ 1 ≤ q.limit ∧ q.limit ≤ 65535 ∧ q.preset < q.limit ∧ q.threshold ≤ 63
    ∧ (q.chained = true → k ≠ 1))

/-- R182, R184, R122, R135, R143: an image that fails is not taken: the block's values come into force, conditions and
counters among them (with an empty clip table, log 21), and FAULT is entered. -/
def Obligations.ImageNotTaken : Prop :=
  ∀ (s : State) (image : List Byte) (st : Staged), s.loader.staged = some st → s.loader.progress = .loading →
    s.resetHeld = false → imagePasses image st.settings.bodyLength = false →
    ∃ t, exec (.imageLoadEnd image) s = .next t
      ∧ t.motion.state = .fault ∧ t.brakeLine = true
      ∧ t.loader = { progress := .failed, listenExpiry := none, staged := none }
      ∧ t.settings = st.settings ∧ t.link.ownAddress = st.address
      ∧ t.route = s.route ∧ t.sound.clips = s.sound.clips ∧ t.peers = s.peers ∧ t.tracker = s.tracker
      ∧ t.claims = s.claims ∧ t.now = s.now ∧ t.link.silence = some s.now ∧ t.restraint.running = true
      ∧ (st.address ≠ 0 → t.link.beaconDue.isSome = true
        ∧ ∃ j, j ≤ 3 ∧ t.link.beaconTimer = some (s.now + st.settings.beaconPeriod + j))
      ∧ (∀ id c, 1 ≤ id → id ≤ 25 → s.cond.record id = some c → ∃ d, t.cond.record id = some d
        ∧ (c.latched = true → d.latched = true)
        ∧ (fixedCondition id = true →
          d.level = c.level ∧ d.announceFirst = c.announceFirst ∧ d.count = c.count ∧ d.clip = c.clip)
        ∧ (fixedCondition id = false →
          let q := (takeCondition st.block (List.replicate 128 none) id).value
          d.level = q.level ∧ d.announceFirst = q.announceFirst ∧ d.count = q.count ∧ d.clip = q.clip))
      ∧ (∀ k c, 1 ≤ k → k ≤ 4 → s.cond.counters[k - 1]? = some c → ∃ d, t.cond.counters[k - 1]? = some d
        ∧ d = { (takeCounter st.block k).value with value := d.value, tripped := d.tripped, armed := d.armed }
        ∧ (s.motion.state = .start → Still s → TablesOk s →
          d.limit ≤ max d.preset c.value → c.tripped = false → (k ≠ 1 ∨ d.event ≠ .none) →
          d.tripped = true ∧ Latched t (19 + k)))
      ∧ (s.cond.frozen = true → t.cond.frozen = true)

/-- R185, R53, R50, R3: the listen period ends: progress DONE, START left for PARKED or STOPPED (an entry that is handed
on at once, R78, before the rest: log 51), UNFIXED_START when unfixed, ESTOP at level 7, and the beacon due with its
timer loaded. -/
def Obligations.ListenPeriodEnds : Prop :=
  ∀ (s : State) (t0 : Nat), s.loader.progress = .listening → s.loader.listenExpiry = some t0 → t0 ≤ s.now →
    s.resetHeld = false → s.motion.state = .start → Still s → TablesOk s →
    (∃ t, exec .listenExpiry s = .next t
      ∧ t.loader.progress = .done ∧ t.loader.listenExpiry = none
      ∧ t.motion.state ≠ .start ∧ t.motion.state ≠ .fault ∧ t.motion.state ≠ .running ∧ t.motion.state ≠ .holding
      ∧ (7 ≤ s.level → t.motion.state = .estop)
      ∧ (s.tracker.conf = .unfixed → Latched t 25)
      ∧ t.link.beaconDue.isSome = true
      ∧ (∃ j, j ≤ 3 ∧ t.link.beaconTimer = some (s.now + s.settings.beaconPeriod + j))
      ∧ t.link.queue = s.link.queue ∧ t.link.seq = s.link.seq ∧ t.tracker = s.tracker ∧ t.route = s.route
      ∧ t.peers = s.peers ∧ t.claims = s.claims ∧ t.settings = s.settings ∧ t.now = s.now
      ∧ CondGrows s.cond t.cond)
    ∧ (let first : MotionState := if s.tracker.atBerth then .parked else .stopped
      let left : State := { s with
        motion := { s.motion with state := first, notices := [first] }
        loader := { s.loader with progress := .done, listenExpiry := none } }
      exec .listenExpiry s = .next (settle (beaconAtOnce (atOnce (applyLevel (unfixedStart (atOnce left)))))))

/-! ## Link -/

/-- R1, Table 1.3: CARRIER_ON, GAP_MET and TRANSMISSION_END in every access state; a draw from 0 to 2^k − 1. -/
def Obligations.ChannelAccess : Prop :=
  (∀ s : State, s.link.carrier = false → s.link.access = .countdown → exec .carrierOn s = .next
    { s with link := { s.link with
        carrier := true, quiet := false, frameLost := !s.receiverOn, access := .gap, k := min 6 (s.link.k + 1), slots := 0 } })
  ∧ (∀ s : State, s.link.carrier = false → s.link.access ≠ .countdown → exec .carrierOn s = .next
    { s with link := { s.link with carrier := true, quiet := false, frameLost := !s.receiverOn } })
  ∧ (∀ s : State, s.link.carrier = false → s.link.access = .gap → ∃ d, d ≤ 2 ^ s.link.k - 1 ∧ exec .gapMet s = .next
    { s with draws := s.draws + 1, link := { s.link with quiet := true, access := .countdown, slots := d } })
  ∧ (∀ s : State, s.link.carrier = false → s.link.access ≠ .gap →
    exec .gapMet s = .next { s with link := { s.link with quiet := true } })
  ∧ (∀ s : State, s.link.access = .sending → s.contends = true → s.link.wantsToSend = true →
    exec .transmissionEnd s = .next { s with link := { s.link with access := .gap, k := 3, quiet := false, onAir := none } })
  ∧ (∀ s : State, s.link.access = .sending → s.link.wantsToSend = false →
    exec .transmissionEnd s = .next { s with link := { s.link with access := .idle, k := 3, quiet := false, onAir := none } })

/-- R2, R4 to R6: the countdown ends: a due beacon is sent with its contents of this moment and the Zone Claim Unit
evaluates; else the queue's head; else nothing. -/
def Obligations.CountdownEnds : Prop :=
  (∀ s : State, s.link.access = .countdown → s.link.beaconDue.isSome = true →
    ∃ t, exec .countdownEnd s = .next t
      ∧ t.link = { s.link with
          access := .sending, slots := 0, onAir := some s.beaconFrame, frameLost := s.link.frameLost || s.link.carrier
          seq := s.link.seq + 1, beaconDue := none }
      ∧ (s.placed = none → t.claims = s.claims)
      ∧ (∀ r x, s.placed = some (r, x) → t.claims = s.claims.map fun c => (judgeClaim r s c).1)
      ∧ Aside { s with link := t.link, claims := t.claims } t)
  ∧ (∀ (s : State) (stamp id dest : Nat) (body : List Byte) (rest : List QueuedFrame), s.link.access = .countdown →
    s.link.beaconDue = none → s.link.queue = .cue stamp id dest body :: rest →
    ∃ t, exec .countdownEnd s = .next t
      ∧ Aside { s with link := { s.link with
          access := .sending, slots := 0, onAir := some (frameOf 1 s.link.ownAddress dest body), queue := rest
          frameLost := s.link.frameLost || s.link.carrier } } t)
  ∧ (∀ (s : State) (dest : Nat) (body : List Byte) (rest : List QueuedFrame), s.link.access = .countdown →
    s.link.beaconDue = none → s.link.queue = .report dest body :: rest → Still s →
    exec .countdownEnd s = .next { s with link := { s.link with
      access := .sending, slots := 0, onAir := some (frameOf 10 s.link.ownAddress dest body), queue := rest
      frameLost := s.link.frameLost || s.link.carrier } })
  ∧ (∀ s : State, s.link.access = .countdown → s.link.beaconDue = none → s.link.queue = [] → Still s →
    exec .countdownEnd s = .next { s with link := { s.link with access := .idle, slots := 0 } })

/-- R3, R4, R1: the beacon timer expires: it is loaded with the period and a jitter of 0 to 3 ms; a beacon not yet due
becomes due now, BACKOFF_LONG starts, and the channel is asked for. The rest of the state is as it was. -/
def Obligations.BeaconTimerExpires : Prop :=
  ∀ (s : State) (t0 : Nat), s.link.beaconTimer = some t0 → t0 ≤ s.now →
    ∃ t, exec .beaconTimerExpiry s = .next t
      ∧ (∃ j, j ≤ 3 ∧ t.link.beaconTimer = some (s.now + s.settings.beaconPeriod + j))
      ∧ t.link.beaconDue = some (s.link.beaconDue.getD s.now)
      ∧ t.link = { s.link with
          beaconTimer := t.link.beaconTimer, beaconDue := t.link.beaconDue, access := t.link.access, slots := t.link.slots }
      ∧ (s.link.beaconDue.isSome = true → t.link.access = s.link.access ∧ t.link.slots = s.link.slots ∧ t.cond = s.cond)
      ∧ (s.link.beaconDue = none →
        t.cond = { s.cond with durations :=
          s.cond.durations.filter (fun d => d.key != .backoffLong) ++ [freshDuration .backoffLong s] }
        ∧ (s.link.access ≠ .idle ∨ s.contends = false → t.link.access = s.link.access ∧ t.link.slots = s.link.slots)
        ∧ (s.link.access = .idle → s.contends = true → (s.link.quiet && !s.link.carrier) = false →
          t.link.access = .gap ∧ t.link.slots = s.link.slots)
        ∧ (s.link.access = .idle → s.contends = true → (s.link.quiet && !s.link.carrier) = true →
          t.link.access = .countdown ∧ t.link.slots ≤ 2 ^ s.link.k - 1))
      ∧ t = { s with draws := t.draws, link := t.link, cond := t.cond }

/-- R8, R123: the oldest CUE whose lateness expiry has come leaves the queue, and CUE_DROP is latched. -/
def Obligations.CueLatenessExpires : Prop :=
  ∀ (s : State) (before after : List QueuedFrame) (stamp id dest : Nat) (body : List Byte),
    s.link.queue = before ++ .cue stamp id dest body :: after →
    (∀ st i d b, QueuedFrame.cue st i d b ∈ before → s.now < st + s.settings.cueLateness) →
    stamp + s.settings.cueLateness ≤ s.now → TablesOk s →
    ∃ t, exec .cueLatenessExpiry s = .next t
      ∧ t.link = { s.link with queue := before ++ after, access := t.link.access }
      ∧ (s.link.access ≠ .gap → t.link.access = s.link.access)
      ∧ (s.link.access = .gap → s.link.beaconDue = none → before ++ after = [] → t.link.access = .idle)
      ∧ (s.link.access = .gap → (s.link.beaconDue.isSome = true ∨ before ++ after ≠ []) → t.link.access = .gap)
      ∧ Latched t 17 ∧ Aside { s with link := t.link } t

/-- R16, R11: the silence timer reaches the link silence time; the own-address time passes 2000 ms. -/
def Obligations.LinkTimersExpire : Prop :=
  (∀ (s : State) (t0 : Nat), s.link.silence = some t0 → s.settings.silenceTime ≤ s.now - t0 → TablesOk s →
    ∃ t, exec .silenceTimerExpiry s = .next t ∧ Latched t 3 ∧ t.cause 3 = true
      ∧ Aside { s with link := { s.link with silence := none, silent := true } } t)
  ∧ (∀ (s : State) (t0 : Nat), s.link.ownHeard = some t0 → 2000 < s.now - t0 →
    exec .ownAddressTimeExpiry s = .next { s with link := { s.link with ownHeard := none } })

/-- R10, R2: a frame not heard changes the carrier line alone; a frame that fails a check is a FRAME_BAD event, and the
silence timer is not restarted; a valid CUE or REPORT restarts it and does nothing more. -/
def Obligations.FramesDiscarded : Prop :=
  ∀ (s : State) (frame : List Byte),
    (s.hears = false → Still s → exec (.receiveFrame frame) s = .next (carrierOff s))
    ∧ (s.hears = true → checkFrame frame = none → ∃ t, exec (.receiveFrame frame) s = .next t
      ∧ t = settle (tally .frameBad 1 (carrierOff s)) ∧ Aside (carrierOff s) t)
    ∧ (∀ f, s.hears = true → checkFrame frame = some f → f.kind = 1 ∨ f.kind = 10 → Still s →
      exec (.receiveFrame frame) s = .next (received s))

/-- R11, R58: a beacon with the own address latches DUPLICATE_ADDRESS, which holds its cause, at level 7. -/
def Obligations.OwnBeaconHeard : Prop :=
  ∀ (s : State) (frame : List Byte) (f : Frame), s.hears = true → checkFrame frame = some f → f.kind = 0 →
    f.source = s.link.ownAddress → TablesOk s →
    ∃ t, exec (.receiveFrame frame) s = .next t ∧ Latched t 2 ∧ t.cause 2 = true ∧ 7 ≤ t.level
      ∧ Aside { received s with link := { (received s).link with ownHeard := some s.now } } t

/-- R19 to R23, R26: a beacon from another station: a duplicate is discarded, any other fills, replaces or renews the
record of its source, with the frames newly lost counted. -/
def Obligations.BeaconTaken : Prop :=
  ∀ (s : State) (frame : List Byte) (f : Frame) (kind : StationKind), s.hears = true → checkFrame frame = some f →
    f.kind = 0 → f.source ≠ s.link.ownAddress → stationKindOf (byteAt f.body 0) = some kind →
    (∀ p, s.peer f.source = some p → p.kind = kind → seqDiff (byteAt f.body 1) p.lastSeq = 0 → Still s →
      exec (.receiveFrame frame) s = .next (received s))
    ∧ ((∀ p, s.peer f.source = some p → p.kind = kind → seqDiff (byteAt f.body 1) p.lastSeq ≠ 0) → PeersOk s →
      ∃ t q, exec (.receiveFrame frame) s = .next t
        ∧ t.peer f.source = some q ∧ q.state = .fresh ∧ q.kind = kind ∧ q.lastSeq = byteAt f.body 1 ∧ q.received = s.now
        ∧ q.body = f.body ∧ q.routePos = beaconPos s.route kind f.body
        ∧ (s.peer f.source = none → q.framesLost = 0)
        ∧ (∀ p, s.peer f.source = some p → p.kind ≠ kind → q.framesLost = 0)
        ∧ (∀ p, s.peer f.source = some p → p.kind = kind →
          let d := seqDiff (byteAt f.body 1) p.lastSeq
          q.framesLost = min 255 (p.framesLost + (if 2 ≤ d ∧ d ≤ 127 then d - 1 else 0)))
        ∧ (∀ a, a ≠ f.source → t.peer a = s.peer a)
        ∧ (kind ≠ .vehicle → t.claims = s.claims)
        ∧ Aside { received s with peers := t.peers, claims := t.claims } t)

/-- R10, R12, R187, R188: a command frame, sent as Chapter 11 gives it, is taken by RECEIVE_FRAME exactly as its command
row. That a command row stands for the whole reception of its frame is the model's choice (log 7). -/
def Obligations.CommandFramesAgree : Prop :=
  ∀ (c : Instr) (frame : List Byte) (s : State), c.wf = true → commandFrame c = some frame →
    exec (.receiveFrame frame) s = exec c s

/-- R10, R12, R14: a command frame that is not heard, not for this part, or without authority. -/
def Obligations.CommandsTurnedAway : Prop :=
  ∀ (c : Instr) (kind : CommandKind) (source target : Nat) (s : State), commandHeader c = some (kind, source, target) →
    Still s →
    (s.hears = false → exec c s = .next (carrierOff s))
    ∧ (s.hears = true → 1 ≤ source → source ≤ 31 → targetTaken kind s.link.ownAddress target = false →
      exec c s = .next (received s))
    ∧ (s.hears = true → 1 ≤ source → source ≤ 31 → targetTaken kind s.link.ownAddress target = true →
      (∀ p, s.peer source = some p → p.state ≠ .fresh) →
      exec c s = .next { received s with link := { (received s).link with
        lastRefusal := some { kind := kind, reason := .unknownSource, source := source } } })
    ∧ (∀ p, s.hears = true → 1 ≤ source → source ≤ 31 → targetTaken kind s.link.ownAddress target = true →
      s.peer source = some p → p.state = .fresh → mayCommand kind p.kind = false →
      exec c s = .next { received s with link := { (received s).link with
        lastRefusal := some { kind := kind, reason := .wrongSourceKind, source := source } } })

/-! ## Commands -/

/-- R95, R58: an accepted STOP with scope RIDE, and one with scope ZONE whose zone is in the claim list, raise the level
to 6; a STOP for another zone has no effect. -/
def Obligations.StopTaken : Prop :=
  ∀ (s : State) (source zone : Nat), Accepted s .stop source 0 → TablesOk s →
    (∃ t, exec (.stopRide source) s = .next t ∧ Latched t 11 ∧ 6 ≤ t.level ∧ Aside (received s) t)
    ∧ ((∃ c ∈ s.claims, c.zone = zone) →
      ∃ t, exec (.stopZone source zone) s = .next t ∧ Latched t 12 ∧ 6 ≤ t.level ∧ Aside (received s) t)
    ∧ ((∀ c ∈ s.claims, c.zone ≠ zone) → Still s → exec (.stopZone source zone) s = .next (received s))

/-- R61, R77: RESUME's checks in their order, and a RESUME that passes them. -/
def Obligations.ResumeJudged : Prop :=
  ∀ (s : State) (source target : Nat), Accepted s .resume source target → Still s →
    (s.motion.state ≠ .stopped → exec (.resume source target) s = .next (refuse .resume .wrongState source (received s)))
    ∧ (s.motion.state = .stopped → 5 < s.level →
      exec (.resume source target) s = .next (refuse .resume .levelTooHigh source (received s)))
    ∧ (s.motion.state = .stopped → s.level ≤ 5 → s.summary ≠ .allVerified →
      exec (.resume source target) s = .next (refuse .resume .notVerified source (received s)))
    ∧ (s.motion.state = .stopped → s.level ≤ 5 → s.summary = .allVerified →
      s.tracker.conf = .unfixed ∨ s.tracker.conf = .lost →
      exec (.resume source target) s = .next (refuse .resume .positionNotGood source (received s)))
    ∧ (s.motion.state = .stopped → s.level ≤ 5 → s.summary = .allVerified → s.tracker.conf ≠ .unfixed →
      s.tracker.conf ≠ .lost → s.motion.immediate = true →
      exec (.resume source target) s = .next (refuse .resume .retired source (received s)))
    ∧ (s.motion.state = .stopped → s.level ≤ 5 → s.summary = .allVerified → s.tracker.conf ≠ .unfixed →
      s.tracker.conf ≠ .lost → s.motion.immediate = false →
      (∃ t, exec (.resume source target) s = .next t
        ∧ Aside { received s with motion := { s.motion with state := .running, dPrev := 0 } } t)
      ∧ (s.settings.resumeClip = none → noMotionCue s .running →
        ∃ t, exec (.resume source target) s = .next t ∧ t.motion = { s.motion with state := .running, dPrev := 0 }
          ∧ t.brakeLine = false ∧ t.cues = s.cues ∧ t.sound = s.sound
          ∧ Aside { received s with motion := { s.motion with state := .running, dPrev := 0 } } t))

/-- R60: DISPATCH is taken in READY and refused with WRONG_STATE elsewhere. -/
def Obligations.DispatchJudged : Prop :=
  ∀ (s : State) (source target : Nat), Accepted s .dispatch source target → Still s →
    (s.motion.state ≠ .ready →
      exec (.dispatch source target) s = .next (refuse .dispatch .wrongState source (received s)))
    ∧ (s.motion.state = .ready →
      (∃ t, exec (.dispatch source target) s = .next t
        ∧ Aside { received s with motion := { s.motion with state := .running, dPrev := 0 } } t)
      ∧ (noMotionCue s .running →
        ∃ t, exec (.dispatch source target) s = .next t ∧ t.motion = { s.motion with state := .running, dPrev := 0 }
          ∧ t.brakeLine = false ∧ t.cues = s.cues ∧ t.sound = s.sound
          ∧ Aside { received s with motion := { s.motion with state := .running, dPrev := 0 } } t))

/-- R113, R114: UNLOCK's checks in their order; each named seat in LOCKED or VERIFIED enters UNLOCKING with its pulse,
every other seat and everything else is as it was. -/
def Obligations.UnlockJudged : Prop :=
  ∀ (s : State) (source target : Nat) (seats : Byte), Accepted s .unlock source target → Still s →
    (s.motion.state ≠ .parked →
      exec (.unlock source target seats) s = .next (refuse .unlock .wrongState source (received s)))
    ∧ (s.motion.state = .parked → 0 < s.speed →
      exec (.unlock source target seats) s = .next (refuse .unlock .moving source (received s)))
    ∧ (s.motion.state = .parked → s.speed = 0 → s.inStation = false →
      exec (.unlock source target seats) s = .next (refuse .unlock .notAtStation source (received s)))
    ∧ (s.motion.state = .parked → s.speed = 0 → s.inStation = true → s.restraint.seats.length = 6 →
      ∃ t, exec (.unlock source target seats) s = .next t
        ∧ (∀ i q, i < 6 → s.restraint.seats[i]? = some q →
          (seats.getLsbD i = true → q.state = .locked ∨ q.state = .verified →
            t.restraint.seats[i]? = some { q with
              state := .unlocking, solenoid := true, pulse := some (s.now + s.settings.unlockPulse), verifyRun := 0
              reference := none, creep := false })
          ∧ (seats.getLsbD i = false ∨ (q.state ≠ .locked ∧ q.state ≠ .verified) → t.restraint.seats[i]? = some q))
        ∧ t = { received s with
            restraint := { s.restraint with seats := t.restraint.seats }
            cond := { s.cond with durations := t.cond.durations } })

/-- R129 to R132, R134, R141, R117, R109: the steps of a CLEAR. Its frame is a valid frame, which ends the cause of
LINK_SILENT (R16), so the causes are judged in `received s`. `u` is the state at the end of the seven steps, before what
the level, handed on once, leads to. -/
def Obligations.ClearTaken : Prop :=
  ∀ (s : State) (source target : Nat) (conditions : BitVec 32) (options : Byte), Accepted s .clear source target →
    TablesOk s →
    let restraint : Restraint := { s.restraint with
      lines := if options.getLsbD 2 then s.restraint.lines.map fun l => { l with mismatches := 0, capture := none }
        else s.restraint.lines
      seats := if conditions.getLsbD 15 then
          s.restraint.seats.map fun q => if q.state = .fault then { q with state := .opened, releaseCheck := true } else q
        else s.restraint.seats }
    (∃ t, exec (.clear source target conditions options) s = .next t
      ∧ SameOutside { received s with restraint := restraint } t
      ∧ ∀ id, 1 ≤ id → id ≤ 25 → conditions.getLsbD id = true → id ≠ 15 → (received s).cause id = true → Latched t id)
    ∧ ((∀ id, 1 ≤ id → id ≤ 25 → conditions.getLsbD id = true → id = 15 ∨ (received s).cause id = false) →
      ∃ t u, exec (.clear source target conditions options) s = .next t ∧ Aside u t
        ∧ u = { received s with
            restraint := restraint
            cond := { s.cond with
              records := u.cond.records
              firstFault := if options.getLsbD 0 then none else s.cond.firstFault
              counters := if options.getLsbD 1 then
                  s.cond.counters.map fun c =>
                    { c with value := c.preset, tripped := false, armed := c.armed && !c.chained }
                else s.cond.counters
              frozen := if options.getLsbD 1 then false else s.cond.frozen
              handed := u.level } }
        ∧ u.cond.records.length = s.cond.records.length
        ∧ ∀ id c, 1 ≤ id → id ≤ 25 → s.cond.record id = some c → u.cond.record id = some
            (if conditions.getLsbD id then
              { c with
                latched := false, remaining := c.count, escalated := false
                announcement := if c.announcement = .counting then .uncounted else c.announcement }
            else c))

/-- R62, R63: the three forms of RETIRE. -/
def Obligations.RetireTaken : Prop :=
  ∀ (s : State) (source target : Nat), Accepted s .retire source target → Still s →
    (s.motion.immediate = true → exec (.retireImmediate source target) s = .next (received s))
    ∧ (s.motion.state = .start ∨ s.motion.state = .fault ∨ s.motion.state = .parked ∨ s.motion.state = .stopping
        ∨ s.motion.state = .stopped ∨ s.motion.state = .estop →
      exec (.retireImmediate source target) s = .next { received s with motion := { s.motion with immediate := true } })
    ∧ (s.motion.immediate = false → s.motion.state = .ready ∨ s.motion.state = .running ∨ s.motion.state = .holding →
      ∃ t, exec (.retireImmediate source target) s = .next t
        ∧ (t.motion.state = .stopping ∨ (t.motion.state = .estop ∧ 7 ≤ t.level))
        ∧ Aside { received s with motion := { s.motion with state := .stopping, immediate := true } } t)
    ∧ (s.motion.state ≠ .ready →
      exec (.retireAtStation source target) s = .next { received s with motion := { s.motion with atStation := true } })
    ∧ (s.motion.state = .ready → ∃ t, exec (.retireAtStation source target) s = .next t ∧ t.motion.state ≠ .ready
      ∧ Aside { received s with motion := { s.motion with state := .parked, atStation := true } } t)
    ∧ (s.motion.state ≠ .parked → exec (.retireLift source target) s = .next
      { received s with motion := { s.motion with immediate := false, atStation := false } })
    ∧ (s.motion.state = .parked → ∃ t, exec (.retireLift source target) s = .next t
      ∧ Aside { received s with motion := { s.motion with immediate := false, atStation := false } } t)

/-- R27, R152: FORGET empties the named record and ends the watches of a scene; a name that has no filled record, or is
the own address, has no effect. -/
def Obligations.ForgetTaken : Prop :=
  ∀ (s : State) (source target address : Nat), Accepted s .forget source target → Still s →
    (address = s.link.ownAddress ∨ s.peer address = none →
      exec (.forget source target address) s = .next (received s))
    ∧ (∀ p, address ≠ s.link.ownAddress → s.peer address = some p → p.kind ≠ .scene →
      exec (.forget source target address) s = .next { received s with peers := s.peers.set (address - 1) none })
    ∧ (∀ p, address ≠ s.link.ownAddress → s.peer address = some p → p.kind = .scene →
      ∃ t, exec (.forget source target address) s = .next t
        ∧ t = { received s with peers := s.peers.set (address - 1) none, cues := t.cues }
        ∧ t.cues.waiting = s.cues.waiting
        ∧ ∀ (i : Nat) (c : CueEntry), s.cues.table[i]? = some c →
          ((∃ time, c.trigger = .sceneTime address time) →
            t.cues.table[i]? = some { c with watching := false, watchExpiry := none })
          ∧ ((∀ time, c.trigger ≠ .sceneTime address time) → t.cues.table[i]? = some c))

/-- R15, R9: QUERY is refused in START and at a full queue; else its REPORT, a snapshot, joins the back of the queue. -/
def Obligations.QueryAnswered : Prop :=
  ∀ (s : State) (source target kind selector : Nat), Accepted s .query source target → Still s →
    (s.motion.state = .start →
      exec (.query source target kind selector) s = .next (refuse .query .wrongState source (received s)))
    ∧ (s.motion.state ≠ .start → 8 ≤ s.link.queue.length →
      exec (.query source target kind selector) s = .next (refuse .query .queueFull source (received s)))
    ∧ (s.motion.state ≠ .start → s.link.queue.length < 8 →
      ∃ t, exec (.query source target kind selector) s = .next t
        ∧ t.link.queue = s.link.queue ++ [.report source (reportBody kind selector s)]
        ∧ t.link = { (received s).link with queue := t.link.queue, access := t.link.access, slots := t.link.slots }
        ∧ (s.link.access ≠ .idle → t.link.access = s.link.access ∧ t.link.slots = s.link.slots)
        ∧ t = { received s with link := t.link, draws := t.draws })

/-! ## Peers -/

/-- R25, R28, R153: ageing of a record; PEER_LOST for a VEHICLE alone; a STALE scene's watches lose their expiries. -/
def Obligations.PeersAge : Prop :=
  (∀ (s : State) (a : Nat) (p : Peer), s.peer a = some p → p.state = .fresh → s.settings.staleTime < s.ageOf p →
    s.settings.staleTime < s.settings.lostTime → p.kind ≠ .scene → Still s →
    exec (.peerStale a) s = .next { s with peers := s.peers.set (a - 1) (some { p with state := .stale }) })
  ∧ (∀ (s : State) (a : Nat) (p : Peer), s.peer a = some p → p.state = .fresh → s.settings.staleTime < s.ageOf p →
    s.settings.staleTime < s.settings.lostTime → p.kind = .scene → Still s →
    ∃ t, exec (.peerStale a) s = .next t
      ∧ t = { s with peers := s.peers.set (a - 1) (some { p with state := .stale }), cues := t.cues }
      ∧ t.cues.waiting = s.cues.waiting
      ∧ ∀ (i : Nat) (c : CueEntry), s.cues.table[i]? = some c →
        ((∃ time, c.trigger = .sceneTime a time) → t.cues.table[i]? = some { c with watchExpiry := none })
        ∧ ((∀ time, c.trigger ≠ .sceneTime a time) → t.cues.table[i]? = some c))
  ∧ (∀ (s : State) (a : Nat) (p : Peer), s.peer a = some p → p.state = .fresh → s.settings.staleTime < s.ageOf p →
    s.settings.lostTime ≤ s.settings.staleTime → TablesOk s →
    ∃ t, exec (.peerStale a) s = .next t ∧ (p.kind = .vehicle → Latched t 4)
      ∧ Aside { s with peers := s.peers.set (a - 1) (some { p with state := .lost }) } t)
  ∧ (∀ (s : State) (a : Nat) (p : Peer), s.peer a = some p → p.state = .stale → s.settings.lostTime < s.ageOf p →
    p.kind ≠ .vehicle → Still s →
    exec (.peerLost a) s = .next { s with peers := s.peers.set (a - 1) (some { p with state := .lost }) })
  ∧ (∀ (s : State) (a : Nat) (p : Peer), s.peer a = some p → p.state = .stale → s.settings.lostTime < s.ageOf p →
    p.kind = .vehicle → TablesOk s →
    ∃ t, exec (.peerLost a) s = .next t ∧ Latched t 4
      ∧ Aside { s with peers := s.peers.set (a - 1) (some { p with state := .lost }) } t)

/-! ## Position -/

/-- R36 to R38, R43 to R50, R55: the advance of an interval with its rounding and its clamps (the two reports of the upper
clamp in the order of log 26); a control interval's wheel counts are read always and discarded during the load; else the
advance enters the history and the distance since marker, moves a placed front forward round the loop, and is handed on
with its misses, its berth rules (the berth distance of a move that overshoots and arms anew: log 14) and its claims. -/
def Obligations.OdometryAdvances : Prop :=
  (∀ (cL cR : Int) (scale : Nat),
    (2 * rawAdvance cL cR scale ≤ (cL + cR) * (scale : Int) + 1 ∧ (cL + cR) * (scale : Int) < 2 * rawAdvance cL cR scale + 1)
    ∧ (rawAdvance cL cR scale < 0 → clampAdvance (rawAdvance cL cR scale) = (0, [.tally .speedClamp]))
    ∧ (0 ≤ rawAdvance cL cR scale → rawAdvance cL cR scale ≤ 60000 →
      clampAdvance (rawAdvance cL cR scale) = ((rawAdvance cL cR scale).toNat, []))
    ∧ (60000 < rawAdvance cL cR scale →
      clampAdvance (rawAdvance cL cR scale) = (60000, [.latch 19, .tally .speedClamp])))
  ∧ (∀ (s : State) (left right : Half),
    let a := (clampAdvance (rawAdvance (left - s.tracker.odoL).toInt (right - s.tracker.odoR).toInt s.settings.odoScale)).1
    (s.loading = true → Still s →
      exec (.odometryAdvance left right) s = .next { s with tracker := { s.tracker with odoL := left, odoR := right } })
    ∧ (s.loading = false → TablesOk s → ∃ t, exec (.odometryAdvance left right) s = .next t
      ∧ t.tracker.odoL = left ∧ t.tracker.odoR = right ∧ t.tracker.history = s.tracker.history.tail ++ [a]
      ∧ t.tracker.since = min 65535000 (s.tracker.since + a) ∧ t.tracker.lateral = s.tracker.lateral
      ∧ (s.tracker.conf = .unfixed ∨ s.route = none → t.tracker.pos = s.tracker.pos ∧ t.tracker.conf = s.tracker.conf
        ∧ t.claims = s.claims)
      ∧ (∀ r, s.tracker.conf ≠ .unfixed → s.route = some r →
        t.tracker.pos = (s.tracker.pos + a) % (1000 * r.len) ∧ t.tracker.retrace = s.tracker.retrace - a)
      ∧ (60000 < rawAdvance (left - s.tracker.odoL).toInt (right - s.tracker.odoR).toInt s.settings.odoScale → Latched t 19)
      ∧ (∀ r, s.tracker.conf ≠ .unfixed → s.route = some r →
        let counted := Tracker.count a { s.tracker with odoL := left, odoR := right }
        let res := advanceResult r s.settings.berthTolerance (counted.history.sum / 100) a counted
        t.tracker = res.tracker
        ∧ t.claims = claimsAfter r res.change.span s.settings s.now (res.tracker.pos / 1000) s.claims
        ∧ (∀ id, Report.latch id ∈ res.reports → Latched t id)
        ∧ (res.change.arrival = true → t.motion.state ≠ .running ∧ t.motion.state ≠ .holding)
        ∧ t = settle (handOn r res (speedWithdraw (countAdvance a
            (reportAll (s.advance left right).2 (readCounts left right s))))))
      ∧ Aside { s with tracker := t.tracker, claims := t.claims } t))
  ∧ (∀ (r : Route) (res : TrackerResult) (s : State),
    handOn r res s = stationWithdraw (motionArrival res.change
      (eitherOrder (reportAll res.reports) (eitherOrder (claimsChange r res.change) (cuesChange r res.change))
        (judgeBerth { s with tracker := res.tracker }))))
  ∧ (∀ (r : Route) (tolerance speed : Nat) (t : Tracker),
    let res := advanceResult r tolerance speed 0 t
    res.reports = [] ∧ res.change.span = none ∧ res.change.ground = none ∧ res.change.code = none
    ∧ res.tracker.pos = t.pos % (1000 * r.len) ∧ res.tracker.conf = t.conf ∧ res.tracker.expected = t.expected
    ∧ res.tracker.missIn = t.missIn ∧ res.tracker.misses = t.misses ∧ res.tracker.retrace = t.retrace
    ∧ (res.change.arrival = false → res.tracker.armed = t.armed ∧ res.tracker.atBerth = t.atBerth ∧ res.tracker.lap = t.lap))
  ∧ (∀ (r : Route) (tolerance speed a : Nat) (t : Tracker), 0 < a →
    let missed := advanceMisses r a t
    let berth := berthForward r tolerance t.pos a true missed.1
    let res := advanceResult r tolerance speed a t
    let last := finishChange r tolerance speed berth.2 missed.2 res.change berth.1
    res.change.span = some (t.pos, a) ∧ res.change.ground = t.newGround r a ∧ res.change.code = none
    ∧ res.tracker = last.tracker ∧ res.reports = last.reports ∧ res.change.arrival = last.change.arrival)
  ∧ (∀ (r : Route) (a m : Nat) (t : Tracker), t.conf = .good ∨ t.conf = .reckoning → t.expected = some m →
    (a ≤ t.missIn → advanceMisses r a t = ({ t.forward r a with missIn := t.missIn - a }, []))
    ∧ (t.missIn < a → 2 ≤ t.misses → advanceMisses r a t
      = ({ t.forward r a with misses := 3, conf := .lost, expected := none, missIn := 0, atBerth := false },
        [.tally .markerMiss, .latch 7]))
    ∧ (∀ n, t.missIn < a → t.misses < 2 → r.markerAfter m = some n → a ≤ t.missIn + r.markerGap m n →
      advanceMisses r a t
        = ({ t.forward r a with
              misses := t.misses + 1, conf := .reckoning, expected := some n, missIn := t.missIn + r.markerGap m n - a },
          [.tally .markerMiss])))
  ∧ (∀ (r : Route) (a : Nat) (t : Tracker), t.conf = .unfixed ∨ t.conf = .lost ∨ t.expected = none →
    advanceMisses r a t = (t.forward r a, []))
  ∧ (∀ (r : Route) (tolerance p f : Nat) (mayArm : Bool) (t : Tracker),
    let entry := 1000 * (r.entry r.stationZone).getD 0
    let toEntry := if ahead (1000 * r.len) p entry = 0 then 1000 * r.len else ahead (1000 * r.len) p entry
    let crosses := mayArm = true ∧ (r.entry r.stationZone).isSome = true ∧ toEntry ≤ f
    let deep := ahead (1000 * r.len) entry p + f
    let b := berthForward r tolerance p f mayArm t
    (¬ crosses → t.armed = false → b.1.armed = false ∧ b.2 = false)
    ∧ (¬ crosses → t.armed = true → (b.1.armed = true ↔ deep / 1000 ≤ r.berthDepth + tolerance)
      ∧ (b.2 = true ↔ r.berthDepth + tolerance < deep / 1000))
    ∧ (crosses → t.armed = false → (b.1.armed = true ↔ (f - toEntry) / 1000 ≤ r.berthDepth + tolerance)
      ∧ (b.2 = true ↔ r.berthDepth + tolerance < (f - toEntry) / 1000))
    ∧ (b.1.atBerth = true ↔ t.atBerth = true ∧ deep / 1000 ≤ r.berthDepth + tolerance)
    ∧ b.1 = { t with armed := b.1.armed, atBerth := b.1.atBerth })
  ∧ (∀ (r : Route) (tolerance speed : Nat) (overshot : Bool) (reports : List Report) (ch : PosChange) (t : Tracker),
    let res := finishChange r tolerance speed overshot reports ch t
    let left := r.berthDepth - ahead (1000 * r.len) (1000 * (r.entry r.stationZone).getD 0) t.pos / 1000
    (res.change.arrival = true ↔ t.armed = true ∧ left ≤ tolerance ∧ speed = 0)
    ∧ (res.change.arrival = true → res.tracker = { t with
        lap := t.lap + 1, armed := false, atBerth := true, fb := if overshot then some 0 else none })
    ∧ (res.change.arrival = false → res.tracker = { t with
        fb := if t.armed then some left else if overshot then some 0 else none })
    ∧ res.reports = reports ++ (if overshot then [.latch 24] else []))

/-- R39, R40, R43, R44, R47 to R49, R86: a complete report of a known code in UNFIXED or LOST is a fix: it places the
front, with confidence GOOD, judges the berth (log 37), and is handed on with its claims; a report that is incomplete, or
taken during the load or in FAULT, is discarded; an unknown code is a MARKER_UNKNOWN event that leaves the tracker as it
was. -/
def Obligations.MarkerFixes : Prop :=
  (∀ (s : State) (code : BitVec 12) (lateral : Half) (complete : Bool),
    (complete = false ∨ s.loading = true ∨ s.motion.state = .fault → Still s →
      exec (.markerReport code lateral complete) s = .next s)
    ∧ (∀ r, complete = true → s.loading = false → s.motion.state ≠ .fault → s.route = some r →
      (code = 0 ∨ r.markerPos code.toNat = none) →
      ∃ t, exec (.markerReport code lateral complete) s = .next t ∧ t = settle (tally .markerUnknown 1 s) ∧ Aside s t)
    ∧ (∀ r m, complete = true → s.loading = false → s.motion.state ≠ .fault → s.route = some r → code ≠ 0 →
      r.markerPos code.toNat = some m → s.tracker.conf = .unfixed ∨ s.tracker.conf = .lost →
      1000 * m < 1000 * r.len → s.tracker.pos < 1000 * r.len →
      ∃ t, exec (.markerReport code lateral complete) s = .next t
        ∧ t.tracker.pos = 1000 * m ∧ t.tracker.conf = .good ∧ t.tracker.misses = 0
        ∧ t.tracker.expected = r.markerAfter code.toNat ∧ t.tracker.lateral = clampInt (-200) 200 lateral.toInt
        ∧ t.tracker.since = 0 ∧ t.tracker.history = s.tracker.history
        ∧ (s.tracker.conf = .unfixed → t.tracker.retrace = 0)
        ∧ (let tol := s.settings.berthTolerance
          let res := fixResult r tol s.speed code.toNat lateral.toInt (1000 * m) s.tracker
          let band := r.zoneAt m = r.stationZone ∧ r.berthDepth ≤ r.depth (1000 * m) / 1000 + tol
            ∧ r.depth (1000 * m) / 1000 ≤ r.berthDepth + tol
          t.tracker = res.tracker
          ∧ (res.change.arrival = false → (t.tracker.atBerth = true ↔ band))
          ∧ (band → s.tracker.armed = false →
            t.tracker.atBerth = true ∧ t.tracker.armed = false ∧ t.tracker.lap = s.tracker.lap)
          ∧ (s.tracker.armed = false → s.tracker.conf = .unfixed → t.tracker.lap = s.tracker.lap
            ∧ (t.tracker.armed = true ↔
              r.zoneAt m = r.stationZone ∧ r.depth (1000 * m) / 1000 + tol < r.berthDepth))
          ∧ (s.tracker.conf = .lost →
            t.claims = claimsAfter r res.change.span s.settings s.now m s.claims)
          ∧ (s.tracker.conf = .unfixed → s.claims = [] →
            let z := r.zoneAt m
            let tail := r.tailOf s.settings.bodyLength m
            let zones := (if z = 255 then [] else [z])
              ++ (if r.zoneAt tail = 255 ∨ r.zoneAt tail = z then [] else [r.zoneAt tail])
            t.claims = pathOrder r tail (placeIntent r s.settings.claimDistance s.now m (pathOrder r tail
                (zones.map fun q => { zone := q, stage := .held, since := none, mark := false })))
            ∧ (TablesOk s → ∀ q ∈ zones, r.capacity q ≤ (s.countedPeers.filter fun p => showsHeld p.2.1 q).length → Latched t 13))
          ∧ t = settle (handOn r res s))
        ∧ Aside { s with tracker := t.tracker, claims := t.claims } t))
  ∧ (∀ (r : Route) (code : Nat) (lateral : Int) (t : Tracker), t.accept r code lateral = { t with
      conf := .good, misses := 0, expected := r.markerAfter code
      missIn := (match r.markerAfter code with | none => 0 | some n => r.markerGap code n) + 150000
      lateral := clampInt (-200) 200 lateral, since := 0 })

/-- R41 to R44, R47, R49: in GOOD and RECKONING the expected marker corrects the position, and a correction of more than
150 mm forward is a jump that latches MARKER_JUMP; the correction is handed on with its berth rules and its claims. Any
other known code is a MARKER_UNKNOWN event. -/
def Obligations.MarkerCorrects : Prop :=
  ∀ (s : State) (code : BitVec 12) (lateral : Half) (r : Route) (m : Nat), s.loading = false → s.motion.state ≠ .fault →
    s.route = some r → code ≠ 0 → r.markerPos code.toNat = some m → s.tracker.conf = .good ∨ s.tracker.conf = .reckoning →
    1000 * m < 1000 * r.len → s.tracker.pos < 1000 * r.len →
    (s.tracker.expected ≠ some code.toNat →
      ∃ t, exec (.markerReport code lateral true) s = .next t ∧ t = settle (tally .markerUnknown 1 s) ∧ Aside s t)
    ∧ (s.tracker.expected = some code.toNat → TablesOk s →
      ∃ t, exec (.markerReport code lateral true) s = .next t
        ∧ t.tracker.pos = 1000 * m ∧ t.tracker.conf = .good ∧ t.tracker.misses = 0
        ∧ t.tracker.expected = r.markerAfter code.toNat ∧ t.tracker.lateral = clampInt (-200) 200 lateral.toInt
        ∧ t.tracker.since = 0 ∧ t.tracker.history = s.tracker.history
        ∧ (150000 < ahead (1000 * r.len) (1000 * m) s.tracker.pos →
            150000 < ahead (1000 * r.len) s.tracker.pos (1000 * m) → Latched t 6)
        ∧ (let tol := s.settings.berthTolerance
          let res := correctionResult r tol s.speed code.toNat lateral.toInt (1000 * m) s.tracker
          let behind := ahead (1000 * r.len) (1000 * m) s.tracker.pos
          let forward := ahead (1000 * r.len) s.tracker.pos (1000 * m)
          let band := r.zoneAt m = r.stationZone ∧ r.berthDepth ≤ r.depth (1000 * m) / 1000 + tol
            ∧ r.depth (1000 * m) / 1000 ≤ r.berthDepth + tol
          t.tracker = res.tracker
          ∧ res.change.code = some code.toNat
          ∧ (behind ≤ 150000 → res.change.span = none ∧ res.change.ground = none
            ∧ t.tracker.retrace = min (500 * r.len) (s.tracker.retrace + behind)
            ∧ (0 < behind → r.zoneAt m ≠ r.stationZone → t.tracker.armed = false))
          ∧ (150000 < behind → res.change.span = some (s.tracker.pos, forward)
            ∧ res.change.ground = s.tracker.newGround r forward
            ∧ t.tracker.retrace = s.tracker.retrace - forward)
          ∧ (res.change.arrival = false → t.tracker.atBerth = true → s.tracker.atBerth = true ∧ band)
          ∧ (∀ id, Report.latch id ∈ res.reports → Latched t id)
          ∧ t.claims = claimsAfter r res.change.span s.settings s.now m s.claims
          ∧ (res.change.arrival = true → t.motion.state ≠ .running ∧ t.motion.state ≠ .holding)
          ∧ t = settle (handOn r res s))
        ∧ Aside { s with tracker := t.tracker, claims := t.claims } t)

/-! ## Motion -/

/-- R68: the braking permit is the greatest whole number whose square does not exceed 2 × A × F, saturated at 4000; the
product keeps within 34 bits. -/
def Obligations.BrakingPermitIsRoot : Prop :=
  (∀ (s : State) (r : Route) (x : Nat), s.placed = some (r, x) →
    (permitOf s).vb = brakingPermit s.settings.decel (freeDistance r s))
  ∧ ∀ decel free : Nat,
    brakingPermit decel free ≤ 4000
    ∧ brakingPermit decel free * brakingPermit decel free ≤ 2 * decel * free
    ∧ (brakingPermit decel free < 4000 →
      2 * decel * free < (brakingPermit decel free + 1) * (brakingPermit decel free + 1))
    ∧ (decel ≤ 2000 → free ≤ 4096000 → 2 * decel * free ≤ 16384000000)
    ∧ 16384000000 < 2 ^ 34
    ∧ brakingPermit decel 0 = 0

/-- R73: the steering correction: the quotient of −(Kl × e) by 16 truncated toward zero, faded over the fade distance,
0 from the fade distance on and with Kl = 0; the products keep within the magnitudes the rule gives. -/
def Obligations.SteeringCorrection : Prop :=
  (∀ (kl fade : Nat) (e : Int) (since : Nat), since < fade →
    steerCorrection kl fade e since
      = ((-((kl * e).tdiv 16)) * ((fade : Int) - since)).tdiv fade)
  ∧ (∀ (kl fade : Nat) (e : Int) (since : Nat), fade ≤ since → steerCorrection kl fade e since = 0)
  ∧ (∀ (fade : Nat) (e : Int) (since : Nat), steerCorrection 0 fade e since = 0)
  ∧ (∀ (kl : Nat) (e : Int), kl ≤ 255 → -200 ≤ e → e ≤ 200 →
    -51000 ≤ (kl : Int) * e ∧ (kl : Int) * e ≤ 51000
    ∧ -3187 ≤ (kl * e).tdiv 16 ∧ (kl * e).tdiv 16 ≤ 3187)
  ∧ (∀ (corr : Int) (fade since : Nat), -3187 ≤ corr → corr ≤ 3187 → fade ≤ 5000 → since < fade →
    -15935000 ≤ corr * ((fade : Int) - since) ∧ corr * ((fade : Int) - since) ≤ 15935000)
  ∧ (∀ (s : State) (r : Route) (x : Nat), s.placed = some (r, x) → s.motion.state ≠ .start → s.motion.state ≠ .fault →
    rawCurvature s = some (r.curvatureAt x
      + steerCorrection s.settings.lateralGain s.settings.fadeDistance s.tracker.lateral s.sinceMm))
  ∧ State.reset.sinceMm = 65535 ∧ Tracker.reset.since / 1000 = 65535

/-- R64, R71, R57, R74, R75: an interval in RUNNING without a permit drop: the demand is the least of Vc and D_prev + U,
held at D_prev while the restraints are not verified; at demand 0 and speed 0 the vehicle enters HOLDING, by that demand
also where the restraint limit holds it at 0 (log 24). In HOLDING a Vc above 0 enters RUNNING, and stays there where the
demand or the speed is above 0; at demand 0 and speed 0 it enters HOLDING again in the same interval (log 24). A
curvature clamp is a STEER_LIMIT event before the record is sent (log 6). -/
def Obligations.RunningDemand : Prop :=
  (∀ s : State, s.resetHeld = false → Still s →
    let p := permitOf s
    let rise := min p.vc (s.motion.dPrev + s.settings.accel / 100)
    let d := if s.summary = .allVerified then rise else min rise s.motion.dPrev
    let k := (curvatureDemand s).1
    let noDrop := s.motion.dPrev ≤ min p.vb p.vs + 2 * ((s.settings.decel + 99) / 100)
    ((curvatureDemand s).2 = false →
      (s.motion.state = .running → noDrop → 0 < d ∨ 0 < s.speed →
        exec .permitCompute s = .next { s with motion := { s.motion with
          dPrev := d, record := some { speed := d, curvature := k, brake := false } } })
      ∧ (s.motion.state = .running → noDrop → d = 0 → s.speed = 0 →
        ∃ t, exec .permitCompute s = .next t ∧ t.motion.dPrev = 0
          ∧ t.motion.record = some { speed := 0, curvature := k, brake := true }
          ∧ Aside { s with motion := { s.motion with state := .holding, dPrev := 0, record := t.motion.record } } t)
      ∧ (s.motion.state = .holding → 0 < p.vc → 0 < d ∨ 0 < s.speed →
        ∃ t, exec .permitCompute s = .next t ∧ t.motion.dPrev = d
          ∧ t.motion.record = some { speed := d, curvature := k, brake := false }
          ∧ Aside { s with motion := { s.motion with state := .running, dPrev := d, record := t.motion.record } } t)
      ∧ (s.motion.state = .holding → 0 < p.vc → d = 0 → s.speed = 0 →
        ∃ t, exec .permitCompute s = .next t
          ∧ t = settle (sendRecord 0 k (enter .holding (enter .running s)))
          ∧ t.motion.dPrev = 0 ∧ t.motion.record = some { speed := 0, curvature := k, brake := true }
          ∧ Aside { s with motion := { s.motion with dPrev := 0, record := t.motion.record } } t))
    ∧ ((curvatureDemand s).2 = true →
      (s.motion.state = .running → noDrop → 0 < d ∨ 0 < s.speed →
        ∃ t, exec .permitCompute s = .next t
          ∧ t = settle (sendRecord d k (tally .steerLimit 1 s))
          ∧ (t.motion.state ≠ .estop →
            t.motion.dPrev = d ∧ t.motion.record = some { speed := d, curvature := k, brake := false })
          ∧ (t.motion.state = .estop →
            t.motion.dPrev = 0 ∧ t.motion.record = some { speed := 0, curvature := k, brake := true })
          ∧ Aside { s with motion := { s.motion with dPrev := t.motion.dPrev, record := t.motion.record } } t)
      ∧ (s.motion.state = .running → noDrop → d = 0 → s.speed = 0 →
        ∃ t, exec .permitCompute s = .next t
          ∧ t = settle (sendRecord 0 k (tally .steerLimit 1 (atOnce (enter .holding s))))
          ∧ t.motion.dPrev = 0 ∧ t.motion.record = some { speed := 0, curvature := k, brake := t.brakeLine }
          ∧ Aside { s with motion := { s.motion with state := .holding, dPrev := 0, record := t.motion.record } } t)
      ∧ (s.motion.state = .holding → 0 < p.vc → 0 < d ∨ 0 < s.speed →
        ∃ t, exec .permitCompute s = .next t
          ∧ t = settle (sendRecord d k (tally .steerLimit 1 (atOnce (enter .running s))))
          ∧ (t.motion.state ≠ .estop →
            t.motion.dPrev = d ∧ t.motion.record = some { speed := d, curvature := k, brake := false })
          ∧ Aside { s with motion := { s.motion with
              state := .running, dPrev := t.motion.dPrev, record := t.motion.record } } t)
      ∧ (s.motion.state = .holding → 0 < p.vc → d = 0 → s.speed = 0 →
        ∃ t, exec .permitCompute s = .next t
          ∧ t = settle (sendRecord 0 k (tally .steerLimit 1 (atOnce (enter .holding (enter .running s)))))
          ∧ t.motion.dPrev = 0 ∧ t.motion.record = some { speed := 0, curvature := k, brake := t.brakeLine }
          ∧ Aside { s with motion := { s.motion with dPrev := 0, record := t.motion.record } } t)))
  ∧ (∀ s : State, (rawCurvature s = none → curvatureDemand s = (0, false))
    ∧ ∀ k, rawCurvature s = some k →
      (curvatureDemand s).1 = max (-(s.settings.curvatureLimit : Int)) (min (s.settings.curvatureLimit : Int) k)
      ∧ ((curvatureDemand s).2 = true ↔
        k < -(s.settings.curvatureLimit : Int) ∨ (s.settings.curvatureLimit : Int) < k))
  ∧ (∀ (d : Nat) (k : Int) (s : State),
    (s.motion.state = .estop → sendRecord d k s = { s with motion := { s.motion with
      dPrev := 0, record := some { speed := 0, curvature := k, brake := s.brakeLine } } })
    ∧ (s.motion.state ≠ .estop → sendRecord d k s = { s with motion := { s.motion with
      dPrev := d, record := some { speed := d, curvature := k, brake := s.brakeLine } } }))

/-- R71, R74, R75, R59: an interval in STOPPING: the demand falls by at least W and keeps within Vb and Vs, and at speed 0
STOPPED is entered; the interval that enters it keeps the falling demand as its record and D_prev, with the brake request
asserted (log 28). At rest the demand is 0 with the brake request asserted; ESTOP is left for STOPPED at speed 0 and a
level of 6 or below. A curvature clamp is a STEER_LIMIT event before the record is sent (log 6). While the reset input is
held no interval is formed (log 30). -/
def Obligations.StoppingAndRestDemand : Prop :=
  (∀ s : State, s.resetHeld = false → Still s → s.motion.state = .stopping →
    let p := permitOf s
    let fall := min (s.motion.dPrev - (s.settings.decel + 99) / 100) (min p.vb p.vs)
    let k := (curvatureDemand s).1
    ((curvatureDemand s).2 = false → 0 < s.speed →
      exec .permitCompute s = .next { s with motion := { s.motion with
        dPrev := fall, record := some { speed := fall, curvature := k, brake := false } } })
    ∧ ((curvatureDemand s).2 = false → s.speed = 0 →
      ∃ t, exec .permitCompute s = .next t ∧ t.motion.dPrev = fall
        ∧ t.motion.record = some { speed := fall, curvature := k, brake := true }
        ∧ Aside { s with motion := { s.motion with state := .stopped, dPrev := fall, record := t.motion.record } } t)
    ∧ ((curvatureDemand s).2 = true → 0 < s.speed →
      ∃ t, exec .permitCompute s = .next t
        ∧ t = settle (sendRecord fall k (tally .steerLimit 1 s))
        ∧ (t.motion.state ≠ .estop →
          t.motion.dPrev = fall ∧ t.motion.record = some { speed := fall, curvature := k, brake := false })
        ∧ (t.motion.state = .estop →
          t.motion.dPrev = 0 ∧ t.motion.record = some { speed := 0, curvature := k, brake := true })
        ∧ Aside { s with motion := { s.motion with dPrev := t.motion.dPrev, record := t.motion.record } } t)
    ∧ ((curvatureDemand s).2 = true → s.speed = 0 →
      ∃ t, exec .permitCompute s = .next t
        ∧ t = settle (sendRecord fall k (tally .steerLimit 1 (atOnce (enter .stopped s))))
        ∧ (t.motion.record = some { speed := fall, curvature := k, brake := true } ∧ t.motion.dPrev = fall
          ∨ t.motion.record = some { speed := 0, curvature := k, brake := true } ∧ t.motion.dPrev = 0)
        ∧ Aside { s with motion := { s.motion with
            state := .stopped, dPrev := t.motion.dPrev, record := t.motion.record } } t))
  ∧ (∀ s : State, s.resetHeld = false → Still s →
    let k := (curvatureDemand s).1
    let rests := s.motion.state = .start ∨ s.motion.state = .fault ∨ s.motion.state = .parked ∨ s.motion.state = .ready
      ∨ s.motion.state = .stopped ∨ (s.motion.state = .holding ∧ (permitOf s).vc = 0)
      ∨ (s.motion.state = .estop ∧ (7 ≤ s.level ∨ 0 < s.speed))
    (rests → (curvatureDemand s).2 = false →
      exec .permitCompute s = .next { s with motion := { s.motion with
        dPrev := 0, record := some { speed := 0, curvature := k, brake := true } } })
    ∧ (s.motion.state = .estop → s.level ≤ 6 → s.speed = 0 → (curvatureDemand s).2 = false →
      ∃ t, exec .permitCompute s = .next t ∧ t.motion.dPrev = 0
        ∧ t.motion.record = some { speed := 0, curvature := k, brake := true }
        ∧ Aside { s with motion := { s.motion with state := .stopped, dPrev := 0, record := t.motion.record } } t)
    ∧ (rests → (curvatureDemand s).2 = true →
      ∃ t, exec .permitCompute s = .next t
        ∧ t = settle (sendRecord 0 k (tally .steerLimit 1 s))
        ∧ t.motion.dPrev = 0 ∧ (∃ brake, t.motion.record = some { speed := 0, curvature := k, brake := brake })
        ∧ Aside { s with motion := { s.motion with dPrev := 0, record := t.motion.record } } t)
    ∧ (s.motion.state = .estop → s.level ≤ 6 → s.speed = 0 → (curvatureDemand s).2 = true →
      ∃ t, exec .permitCompute s = .next t
        ∧ t = settle (sendRecord 0 k (tally .steerLimit 1 (atOnce (enter .stopped s))))
        ∧ t.motion.dPrev = 0 ∧ t.motion.record = some { speed := 0, curvature := k, brake := true }
        ∧ Aside { s with motion := { s.motion with state := .stopped, dPrev := 0, record := t.motion.record } } t))
  ∧ (∀ s : State, s.resetHeld = true → exec .permitCompute s = .next s)

/-- R72, R74, R75: a permit drop in RUNNING: PERMIT_DROP is latched and the vehicle is in ESTOP within the interval, whose
record carries demand 0 and the brake request asserted. -/
def Obligations.PermitDrops : Prop :=
  ∀ s : State, s.resetHeld = false → s.motion.state = .running → LevelOk s → TablesOk s →
    min (permitOf s).vb (permitOf s).vs + 2 * ((s.settings.decel + 99) / 100) < s.motion.dPrev →
    ∃ t, exec .permitCompute s = .next t ∧ Latched t 8 ∧ 7 ≤ t.level ∧ t.motion.state = .estop ∧ t.brakeLine = true
      ∧ t.motion.dPrev = 0
      ∧ t.motion.record = some { speed := 0, curvature := (curvatureDemand s).1, brake := true }
      ∧ Aside { s with motion := { s.motion with state := .estop, dPrev := 0, record := t.motion.record } } t

/-- R76, R58: an input that becomes asserted latches its condition at level 7; one that is asserted already, or is
released, changes its line alone; while the reset input is held only the line is taken. -/
def Obligations.StopInputs : Prop :=
  ∀ s : State, TablesOk s →
    (s.driveFaultIn = false → s.resetHeld = false → ∃ t, exec .driveFault s = .next t ∧ Latched t 9 ∧ t.cause 9 = true
      ∧ 7 ≤ t.level ∧ Aside { s with driveFaultIn := true } t)
    ∧ (s.driveFaultIn = false → s.resetHeld = true → exec .driveFault s = .next { s with driveFaultIn := true })
    ∧ (s.driveFaultIn = true → exec .driveFault s = .next s)
    ∧ exec .driveFaultInputReleased s = .next { s with driveFaultIn := false }
    ∧ (s.localStopIn = false → s.resetHeld = false → ∃ t, exec .localStop s = .next t ∧ Latched t 10 ∧ t.cause 10 = true
      ∧ 7 ≤ t.level ∧ Aside { s with localStopIn := true } t)
    ∧ (s.localStopIn = false → s.resetHeld = true → exec .localStop s = .next { s with localStopIn := true })
    ∧ (s.localStopIn = true → exec .localStop s = .next s)
    ∧ exec .localStopInputReleased s = .next { s with localStopIn := false }

/-! ## Claims -/

/-- R88, R91 to R93: a control interval's evaluation, while the list holds an INTENT entry, judges every entry: promotion
of an INTENT entry whose age, counts and level allow it; the yield and the refused yield of a HELD entry of an unoccupied
zone; a HELD entry of an occupied zone is not judged. Without an INTENT entry no evaluation is made. R80 to R85, R87: what
the steps of a position change do to the list, and the forced entry, which latches ZONE_CONFLICT. -/
def Obligations.ClaimsEvaluated : Prop :=
  (∀ s : State, s.loading = false →
    ((∀ c ∈ s.claims, c.stage = .held) → Still s → exec .claimIntervalEvaluation s = .next s)
    ∧ (∀ r x, s.placed = some (r, x) → (∃ c ∈ s.claims, c.stage = .intent) →
      ∃ t, exec .claimIntervalEvaluation s = .next t
        ∧ t.claims = s.claims.map (fun c => (judgeClaim r s c).1)
        ∧ t = settle (reportAll (s.claims.flatMap fun c => (judgeClaim r s c).2)
            { s with claims := s.claims.map fun c => (judgeClaim r s c).1 })
        ∧ (∀ c ∈ s.claims, c.stage = .intent →
          (s.settings.settleTime ≤ s.now - c.since.getD s.now →
            heldCount s c.zone + intentCount s r c.zone < r.capacity c.zone → s.level ≤ 4 →
            judgeClaim r s c = ({ c with stage := .held, since := none }, []))
          ∧ (s.now - c.since.getD s.now < s.settings.settleTime
            ∨ r.capacity c.zone ≤ heldCount s c.zone + intentCount s r c.zone ∨ 5 ≤ s.level →
            judgeClaim r s c = (c, [])))
        ∧ (∀ c ∈ s.claims, c.stage = .held → r.occupied s.settings.bodyLength s.front c.zone = true →
          judgeClaim r s c = (c, []))
        ∧ (∀ c ∈ s.claims, c.stage = .held → r.occupied s.settings.bodyLength s.front c.zone = false →
          (heldPrecedingCount s r c.zone < r.capacity c.zone → judgeClaim r s c = ({ c with mark := false }, []))
          ∧ (∀ e, r.capacity c.zone ≤ heldPrecedingCount s r c.zone → r.entry c.zone = some e →
            let vy := isqrt (2 * s.settings.decel * (ahead r.len s.front e - s.settings.margin))
            (s.speed ≤ vy → judgeClaim r s c
              = ({ c with stage := .intent, since := some s.now, mark := false }, [.tally .zoneYield]))
            ∧ (vy < s.speed → c.mark = false → judgeClaim r s c = ({ c with mark := true }, [.latch 13]))
            ∧ (vy < s.speed → c.mark = true → judgeClaim r s c = (c, []))))
        ∧ Aside { s with claims := t.claims } t))
  ∧ (∀ (r : Route) (tail : Nat) (cs : List Claim), (pathOrder r tail cs).Perm cs
    ∧ (pathOrder r tail cs).Pairwise fun a b => claimKey r tail a ≤ claimKey r tail b)
  ∧ (∀ (r : Route) (body front : Nat) (span : Option (Nat × Nat)) (cs : List Claim) (c : Claim),
    (c ∈ (releaseStep r body span cs).1 ↔ c ∈ cs ∧ ¬ ∃ p f e, span = some (p, f) ∧ r.zoneEnd c.zone = some e
      ∧ spanHas r.loop ((p + (r.loop - (1000 * body) % r.loop)) % r.loop) f (1000 * e) = true)
    ∧ (∀ z, z ∈ (releaseStep r body span cs).2 ↔ ∃ d ∈ cs, d.zone = z ∧ d ∉ (releaseStep r body span cs).1)
    ∧ (c ∈ withdrawStep r body front cs ↔
      c ∈ cs ∧ (r.occupied body front c.zone = true ∨ ∃ d, r.nextEntry front = some (c.zone, d))))
  ∧ (∀ (r : Route) (tail frontZone z : Nat) (cs : List Claim),
    let entry : Claim := { zone := z, stage := .held, since := none, mark := false }
    (∀ c, claimOf cs z = some c → c.stage = .held → entryList r tail frontZone cs z
      = cs.map fun q => if q.zone = z then { q with mark := false } else q)
    ∧ (∀ c, claimOf cs z = some c → c.stage = .intent → entryList r tail frontZone cs z
      = cs.map fun q => if q.zone = z then { q with stage := .held, since := none, mark := false } else q)
    ∧ (claimOf cs z = none → cs.length < 2 → entryList r tail frontZone cs z = cs ++ [entry])
    ∧ (claimOf cs z = none → 2 ≤ cs.length → (∃ c ∈ cs, c.zone ≠ frontZone) →
      ∃ d ∈ cs, d.zone ≠ frontZone ∧ (∀ c ∈ cs, c.zone ≠ frontZone → claimKey r tail d ≤ claimKey r tail c)
        ∧ makeRoom r tail frontZone cs = (cs.filter (fun c => c.zone ≠ d.zone), [d.zone])
        ∧ entryList r tail frontZone cs z = cs.filter (fun c => c.zone ≠ d.zone) ++ [entry]))
  ∧ (∀ (r : Route) (s : State) (z : Nat),
    let tail := r.tailOf s.settings.bodyLength s.front
    let entered := entryList r tail (r.zoneAt s.front) s.claims z
    (∀ c, claimOf s.claims z = some c → c.stage = .held → enterZone r s z = { s with claims := entered })
    ∧ (∀ c, claimOf s.claims z = some c → c.stage = .intent → enterZone r s z = latch 13 { s with claims := entered })
    ∧ (claimOf s.claims z = none →
      let room := makeRoom r tail (r.zoneAt s.front) s.claims
      enterZone r s z
        = latch 13 { (room.2.foldl zoneLeave { s with claims := room.1 }) with claims := entered }))
  ∧ (∀ (r : Route) (distance now front : Nat) (cs : List Claim),
    (∀ z d, r.nextEntry front = some (z, d) → (∀ c ∈ cs, c.zone ≠ z) → d ≤ distance → cs.length < 2 →
      placeIntent r distance now front cs = cs ++ [{ zone := z, stage := .intent, since := some now, mark := false }])
    ∧ (∀ z d, r.nextEntry front = some (z, d) → (∃ c ∈ cs, c.zone = z) ∨ distance < d ∨ 2 ≤ cs.length →
      placeIntent r distance now front cs = cs)
    ∧ (r.nextEntry front = none → placeIntent r distance now front cs = cs))

/-! ## Restraints -/

/-- R99 to R101: the sequence of mode LFSR, and one sample of the line test: each driven line takes its bit and its return
into its window. -/
def Obligations.LineSampled : Prop :=
  (lfsrSequence.length = 127
    ∧ (∀ j, j < 7 → lfsrSequence.getD j false = true)
    ∧ (∀ j, 7 ≤ j → j < 127 →
      lfsrSequence.getD j false = (lfsrSequence.getD (j - 1) false ^^ lfsrSequence.getD (j - 7) false))
    ∧ (∀ start, start < 127 → (∃ i, i < 7 ∧ lfsrSequence.getD ((start + i) % 127) false = true)
      ∧ ∃ i, i < 8 ∧ lfsrSequence.getD ((start + i) % 127) false = false))
  ∧ ∀ (s : State) (returns : BitVec 12),
    (s.restraint.running = false → exec (.lineTestSample returns) s = .next s)
    ∧ (s.restraint.running = true → ∃ t, exec (.lineTestSample returns) s = .next t
      ∧ t = { s with restraint := { s.restraint with
          n := s.restraint.n + 1, fill := if s.restraint.n % 16 = 0 then 1 else s.restraint.fill + 1
          lines := t.restraint.lines } }
      ∧ t.restraint.lines.length = s.restraint.lines.length
      ∧ ∀ (k : Nat) (l : Line) (q : Seat), s.restraint.lines[k]? = some l → s.restraint.seats[k / 2]? = some q →
        let b := driveBit s.settings k s.restraint.n
        (q.state ≠ .unused → t.restraint.lines[k]? = some { l with
          drive := b
          driveWord := (l.driveWord <<< 1) ||| (BitVec.ofBool b).setWidth 16
          returnWord := (l.returnWord <<< 1) ||| (BitVec.ofBool (returns.getLsbD k)).setWidth 16 })
        ∧ (q.state = .unused → t.restraint.lines[k]? = some { l with drive := false })
        ∧ (s.settings.testMode = .lfsr → b = lfsrSequence.getD ((s.restraint.n + 10 * k) % 127) false)
        ∧ (s.settings.testMode = .fixed → b = s.settings.fixedPattern.getLsbD (15 - s.restraint.n % 16))
        ∧ (s.settings.testMode = .off → b = true))

/-- R99, R102 to R105, R108, R109, R111, R112: a window end: both lines of every used seat are judged, and every used seat
takes the state that its reading gives; an UNUSED seat and its lines are as they were. The next window opens. -/
def Obligations.WindowJudged : Prop :=
  ∀ (s : State) (positions : List Byte), s.restraint.running = true → s.restraint.fill = 16 → TablesOk s →
    ∃ t, exec (.windowEnd positions) s = .next t ∧ t.restraint.fill = 0
      ∧ t.restraint.lines.length = s.restraint.lines.length
      ∧ (∀ (k : Nat) (l : Line) (q : Seat), s.restraint.lines[k]? = some l → s.restraint.seats[k / 2]? = some q →
        let j := judgeWindow l.driveWord l.returnWord
        (q.state ≠ .unused → t.restraint.lines[k]? = some { l with
          judgement := some j
          mismatches := if j = .mismatch then min 255 (l.mismatches + 1) else l.mismatches
          capture := if j = .mismatch then some (l.capture.getD (l.driveWord, l.returnWord)) else l.capture })
        ∧ (q.state = .unused → t.restraint.lines[k]? = some l))
      ∧ (∀ (i : Nat) (q : Seat) (a b : Line), s.restraint.seats[i]? = some q → s.restraint.lines[2 * i]? = some a →
        s.restraint.lines[2 * i + 1]? = some b → q.state ≠ .unused →
        let ja := judgeWindow a.driveWord a.returnWord
        let jb := judgeWindow b.driveWord b.returnWord
        let w := seatStep s.settings (readingOf s.settings.lockMinimum (byteAt positions i) ja jb) (byteAt positions i) q
        (∃ v, t.restraint.seats[i]? = some v ∧ v.state = w.state ∧ v.code = some (byteAt positions i)
          ∧ v.verifyRun = w.verifyRun ∧ v.disagreeRun = w.disagreeRun ∧ v.mismatchRun = w.mismatchRun
          ∧ v.lowRun = w.lowRun ∧ v.reference = w.reference ∧ v.releaseCheck = w.releaseCheck
          ∧ v.creep = creepAfter s.settings.creepLimit (byteAt positions i) w)
        ∧ (w.state = .fault → q.state ≠ .fault → Latched t 15)
        ∧ (w.state = .opened → q.state = .verified → s.motion.state.moving = true → Latched t 14))
      ∧ (∀ (i : Nat) (q : Seat), s.restraint.seats[i]? = some q → q.state = .unused →
        ∃ v, t.restraint.seats[i]? = some v ∧ bareSeat v = bareSeat q)
      ∧ Aside { s with restraint := { s.restraint with
          fill := 0, lines := t.restraint.lines, seats := t.restraint.seats } } t

/-- R104 to R107, R109, R114, R116, Table 6.5: how one used seat's state follows its readings. `out` is a fault run that
reaches 3 at this window (R105). -/
def Obligations.SeatStates : Prop :=
  ∀ (c : Settings) (r : Reading) (code : Nat) (q : Seat), q.state ≠ .unused →
    let w := seatStep c r code q
    let out := (r = .disagree ∧ 2 ≤ q.disagreeRun) ∨ (r = .mismatch ∧ 2 ≤ q.mismatchRun) ∨ (r = .lockedLow ∧ 2 ≤ q.lowRun)
    (q.state = .fault → w = { q with code := some code })
    ∧ (q.state ≠ .fault → q.releaseCheck = true →
      (w.state = .fault ↔ r ≠ .lockedHigh ∧ r ≠ .unlocked) ∧ w.releaseCheck = false
      ∧ (r = .unlocked → w.state = .opened)
      ∧ (r = .lockedHigh → w.state = .locked ∧ w.verifyRun = 1))
    ∧ (q.state ≠ .fault → q.releaseCheck = false → (w.state = .fault ↔ out))
    ∧ (q.state ≠ .fault → w.state = .fault → w.disagreeRun = 0 ∧ w.mismatchRun = 0 ∧ w.lowRun = 0 ∧ w.verifyRun = 0
      ∧ w.reference = none ∧ w.releaseCheck = false ∧ w.solenoid = false ∧ w.pulse = none)
    ∧ (q.releaseCheck = false →
      (w.state = .verified ↔
        (q.state = .verified ∧ r ≠ .unlocked ∧ ¬ out)
        ∨ (q.state = .locked ∧ r = .lockedHigh ∧ c.testMode ≠ .off ∧ c.verifyTime ≤ 16 * (q.verifyRun + 1))))
    ∧ (q.state = .locked → r = .lockedHigh → q.releaseCheck = false → c.testMode ≠ .off →
      c.verifyTime ≤ 16 * (q.verifyRun + 1) → w.reference = some code)
    ∧ (q.state ≠ .fault → q.releaseCheck = false → ¬ out →
      (w.disagreeRun = (if r = .disagree then q.disagreeRun + 1 else 0)
        ∧ w.mismatchRun = (if r = .mismatch then q.mismatchRun + 1 else 0)
        ∧ w.lowRun = (if r = .lockedLow then q.lowRun + 1 else 0))
      ∧ (q.state = .opened → r = .lockedHigh → w.state = .locked ∧ w.verifyRun = 1)
      ∧ (q.state = .opened → r ≠ .lockedHigh → w.state = .opened)
      ∧ (q.state = .locked → r = .unlocked → w.state = .opened ∧ w.verifyRun = 0)
      ∧ (q.state = .locked → r ≠ .unlocked → r ≠ .lockedHigh → w.state = .locked ∧ w.verifyRun = 0)
      ∧ (q.state = .locked → r = .lockedHigh → c.testMode ≠ .off →
        w.verifyRun = q.verifyRun + 1 ∧ (16 * (q.verifyRun + 1) < c.verifyTime → w.state = .locked))
      ∧ (q.state = .locked → r = .lockedHigh → c.testMode = .off →
        w.verifyRun = min 188 (q.verifyRun + 1) ∧ w.state = .locked)
      ∧ (q.state = .verified → r = .unlocked → w.state = .opened ∧ w.reference = none ∧ w.verifyRun = 0)
      ∧ (q.state = .verified → r ≠ .unlocked → w.reference = q.reference ∧ w.verifyRun = q.verifyRun)
      ∧ (q.state = .unlocking → q.solenoid = true → r = .unlocked →
        w.state = .opened ∧ w.solenoid = false ∧ w.pulse = none)
      ∧ (q.state = .unlocking → q.solenoid = true → r ≠ .unlocked →
        w.state = .unlocking ∧ w.solenoid = true ∧ w.pulse = q.pulse)
      ∧ (q.state = .unlocking → q.solenoid = false → r = .lockedHigh → w.state = .locked ∧ w.verifyRun = 1)
      ∧ (q.state = .unlocking → q.solenoid = false → r ≠ .lockedHigh → w.state = .opened))

/-- R115: the unlock pulse of a seat still in UNLOCKING ends: LOCKED with verify run 0, its solenoid off, and UNLOCK_FAIL
latched; without such a pulse nothing happens. -/
def Obligations.PulseExpires : Prop :=
  ∀ (s : State) (seat : Nat) (q : Seat), 1 ≤ seat → s.restraint.seats[seat - 1]? = some q →
    (∀ t0, q.state = .unlocking → q.pulse = some t0 → t0 ≤ s.now → TablesOk s →
      ∃ t, exec (.unlockPulseExpiry seat) s = .next t ∧ Latched t 16
        ∧ Aside { s with restraint := { s.restraint with
            seats := s.restraint.seats.set (seat - 1) { q with
              state := .locked, verifyRun := 0, solenoid := false, pulse := none } } } t)
    ∧ (q.state ≠ .unlocking ∨ q.pulse = none → exec (.unlockPulseExpiry seat) s = .next s)

/-! ## Conditions and tallies -/

/-- R123, R126 to R128, R133: an occurrence: the flag, the first-fault record at level 4 or more while it is empty (with
the motion state as entered, log 50), the announcement of an ANNOUNCE_FIRST condition, which is started, refused or not
asked for, and the level handed on; nothing outside the side effects changes. A refused request, and the end of a counted
announcement, drop the remaining count, and at 0 the condition escalates. -/
def Obligations.OccurrenceTaken : Prop :=
  (∀ (s : State) (id : Nat) (c : Condition), s.cond.record id = some c →
    Latched (latch id s) id ∧ (latch id s).cond.handed = (latch id s).level ∧ Aside s (latch id s)
    ∧ (c.announceFirst = false → c.level ≤ (latch id s).level)
    ∧ (4 ≤ c.level → s.cond.firstFault = none → (latch id s).cond.firstFault = some (firstFaultOf id c.level s))
    ∧ (∀ f, s.cond.firstFault = some f → (latch id s).cond.firstFault = some f)
    ∧ (Stands s.cond.handed s.motion.state → Stands (latch id s).level (latch id s).motion.state)
    ∧ (let b := fillFirstFault id (onRecord id (fun q => { q with latched := true }) s)
      (c.announceFirst = false ∨ s.loading = true ∨ c.remaining = 0 ∨ c.announcement ≠ .none → latch id s = handLevel b)
      ∧ (c.announceFirst = true → s.loading = false → 0 < c.remaining → c.announcement = .none →
        (c.clip = none → latch id s = handLevel (onRecord id Condition.drop b))
        ∧ ∀ k, c.clip = some k →
          let r := requestVoice
            { clip := k, priority := 3, gains := [128, 128, 128, 128], lock := none, tag := .condition id } b
          let started := onRecord id (fun q => { q with announcement := .counting }) r.1
          (r.2.started = false → latch id s = handLevel (onRecord id Condition.drop r.1))
          ∧ (r.2.started = true → r.2.stolen = none → latch id s = handLevel started)
          ∧ (r.2.started = true → r.2.stolen ≠ none →
            let y := tallyCore (fun _ => true) .voiceSteal 1 started
            latch id s = handLevel (y.2.foldl (fun a n => latchWithBy atOnce false 3 (19 + n) a) y.1)))))
  ∧ (∀ c : Condition,
    (c.remaining = 0 → c.drop = c)
    ∧ (∀ n, c.remaining = n + 1 → c.drop = { c with remaining := n, escalated := c.escalated || decide (n = 0) })
    ∧ (c.announcement = .counting → c.voiceEnd = { c.drop with announcement := .none })
    ∧ (c.announcement ≠ .counting → c.voiceEnd = { c with announcement := .none }))
  ∧ (∀ (s : State) (id : Nat), endWithout (.condition id) s = handLevel (onRecord id Condition.voiceEnd s))
  ∧ (∀ s : State,
    (∀ c ∈ s.cond.records, c.latched = true → c.announceFirst = false ∨ c.escalated = true → c.level ≤ s.level)
    ∧ (s.level = 0 ∨ ∃ c ∈ s.cond.records,
      c.latched = true ∧ (c.announceFirst = false ∨ c.escalated = true) ∧ c.level = s.level))

/-- R136, R138, R139: the five tests by which a counter takes an arrival, among them the qualifiers of phase and zone, and
an arrival of an amount at a counter that takes it and at one that does not. The motion state read is the one entered
(log 50). -/
def Obligations.TallyArrival : Prop :=
  ∀ (s : State) (event : TallyEvent) (amount k : Nat) (c : Counter), s.cond.counters[k]? = some c →
    let u := (tallyCore (fun _ => true) event amount s).1
    (c.takes event s = true ↔
      event ≠ .none ∧ c.event = event ∧ s.cond.frozen = false ∧ c.tripped = false ∧ (c.chained = false ∨ c.armed = true)
      ∧ (c.phase = .moving →
        s.motion.state = .running ∨ s.motion.state = .holding ∨ s.motion.state = .stopping)
      ∧ (c.phase = .parked → s.motion.state = .parked ∨ s.motion.state = .ready)
      ∧ (c.phase = .stopped → s.motion.state = .stopped ∨ s.motion.state = .estop)
      ∧ (c.zone = .marked → ∃ r x, s.placed = some (r, x) ∧ r.zoneAt x ≠ 255 ∧ r.marked (r.zoneAt x) = true)
      ∧ (c.zone = .unmarked → ∃ r x, s.placed = some (r, x) ∧ (r.zoneAt x = 255 ∨ r.marked (r.zoneAt x) = false)))
    ∧ ∃ d, u.cond.counters[k]? = some d
      ∧ (c.takes event s = true → d.value = min c.limit (c.value + amount) ∧ (d.tripped = true ↔ c.limit ≤ c.value + amount))
      ∧ (c.takes event s = false → d.value = c.value ∧ d.tripped = c.tripped)
      ∧ (k + 1 ∈ (tallyCore (fun _ => true) event amount s).2 ↔ c.takes event s = true ∧ c.limit ≤ c.value + amount)
      ∧ (d.armed = true ↔ c.armed = true ∨ (c.chained = true ∧ 1 ∈ (tallyCore (fun _ => true) event amount s).2))

/-- R137: a running event passes a counter's threshold for the first time: its mark is set and the counter is offered one
arrival; before the threshold, or once the mark is set, nothing happens. -/
def Obligations.ThresholdPassed : Prop :=
  ∀ (s : State) (key : DurationKey) (counter : Nat) (d : Duration) (c : Counter), s.duration key = some d →
    1 ≤ counter → counter ≤ 4 → s.cond.counters[counter - 1]? = some c → d.passed.length = 4 →
    (c.event = durationEvent key → d.passed.getD (counter - 1) true = false → 4 * c.threshold ≤ s.now - d.start →
      ∃ t, exec (.durationThreshold key counter) s = .next t ∧ Aside s t
        ∧ t = settle (latchTrips (tallyCore (fun k => k = counter) (durationEvent key) 1 (markPassed key counter s)))
        ∧ ∃ e, (markPassed key counter s).duration key = some e ∧ e.passed = d.passed.set (counter - 1) true
          ∧ e.start = d.start)
    ∧ (c.event ≠ durationEvent key ∨ d.passed.getD (counter - 1) true = true ∨ s.now - d.start < 4 * c.threshold →
      exec (.durationThreshold key counter) s = .next s)

/-! ## Cues -/

/-- R146, R147, R149, R150: an occurrence of an enabled cue: the tests in their order, and a firing. Which cues occur at
a position change, and in what order: those of the new ground in route order, then the accepted marker's, then the
watches, in cue id order by the model's choice (log 46). -/
def Obligations.CueOccurs : Prop :=
  (∀ (s : State) (id : Nat) (c : CueEntry), s.cues.table[id]? = some c → c.enabled = true →
    (c.gate < s.level ∨ (c.every = false ∧ c.fired = true) ∨ (∃ w ∈ s.cues.waiting, w.cue = id) → cueOccur s id = s)
    ∧ (s.level ≤ c.gate → (c.every = true ∨ c.fired = false) → (∀ w ∈ s.cues.waiting, w.cue ≠ id) →
      (16 ≤ s.cues.waiting.length → cueOccur s id = latch 17 (tally .cueDropped 1 s))
      ∧ (s.cues.waiting.length < 16 →
        ∃ q : CueSequencer, cueOccur s id = { s with cues := q }
          ∧ q.table[id]? = some { c with fired := c.fired || !c.every }
          ∧ (∀ i, i ≠ id → q.table[i]? = s.cues.table[i]?)
          ∧ ∃ before after, s.cues.waiting = before ++ after
            ∧ q.waiting = before ++ WaitingCue.mk id (s.now + c.delay) :: after
            ∧ (∀ w ∈ after.head?, s.now + c.delay < w.due)
            ∧ ∀ w ∈ before, w.due ≤ s.now + c.delay)))
  ∧ (∀ (s : State) (p : CueTrigger → Bool),
    occurWhere p s = (cuesWhere p s).foldl cueOccur s
    ∧ (cuesWhere p s).Pairwise (fun i j => i < j)
    ∧ ∀ i, i ∈ cuesWhere p s ↔ ∃ c, s.cues.table[i]? = some c ∧ c.enabled = true ∧ p c.trigger = true)
  ∧ (∀ (r : Route) (ch : PosChange) (s : State),
    let s1 := (groundCues r ch.ground s).foldl cueOccur s
    let s2 := match ch.code with
      | none => s1
      | some code => occurWhere (fun t => t = .marker code) s1
    let s3 := (List.range s2.cues.table.length).foldl (watchChange r ch) s2
    (ch.arrival = false → cuesChange r ch s = s3)
    ∧ (ch.arrival = true → cuesChange r ch s
      = { s3 with cues := { s3.cues with table := s3.cues.table.map fun c => { c with fired := false } } }))
  ∧ (∀ (r : Route) (s : State), groundCues r none s = [])
  ∧ (∀ (r : Route) (p f : Nat) (s : State),
    let gone := fun x => if ahead (1000 * r.len) p x = 0 then 1000 * r.len else ahead (1000 * r.len) p x
    (∀ i, i ∈ groundCues r (some (p, f)) s ↔ ∃ c x later, s.cues.table[i]? = some c ∧ c.enabled = true
      ∧ triggerPlace r c.trigger = some (x, later) ∧ gone x ≤ f)
    ∧ (groundCues r (some (p, f)) s).Pairwise fun i j => ∀ c d x y m n, s.cues.table[i]? = some c →
      s.cues.table[j]? = some d → triggerPlace r c.trigger = some (x, m) → triggerPlace r d.trigger = some (y, n) →
      gone x < gone y ∨ (gone x = gone y ∧ (m < n ∨ (m = n ∧ i < j))))
  ∧ (∀ (r : Route) (t : CueTrigger) (x later : Nat), triggerPlace r t = some (x, later) ↔
      (later = 0 ∧ ∃ z e, t = .zoneEnter z ∧ r.entry z = some e ∧ x = 1000 * e)
      ∨ (later = 1 ∧ ∃ g o, t = .position g o ∧ g < r.segments.length ∧ x = 1000 * (r.startOf g + o)))

/-- R148, R6, R7, R154 to R156: the local time advances by one ms; the clock does not run while the reset input is held;
with no entry due nothing else changes. An entry that is due executes its action: a LINK_CUE joins the transmit queue,
displaces the newest REPORT of a full one (the refusal of its QUERY), or is dropped; a SOUND_START asks for a voice; a
SOUND_STOP stops the voices of the named cue. Two clauses are the model's choice: that a held reset input stops the clock
(log 30), and that the VOICE_STEAL arrival of a SOUND_START is taken once its request has been answered (log 16). -/
def Obligations.MsAdvances : Prop :=
  (∀ s : State,
    (s.resetHeld = true → exec .pendingAdvance s = .next s)
    ∧ (s.resetHeld = false → ∃ t, exec .pendingAdvance s = .next t ∧ t.now = s.now + 1
      ∧ Aside { s with now := s.now + 1, link := t.link } t)
    ∧ (s.resetHeld = false → (∀ w ∈ s.cues.waiting, s.now + 1 < w.due) → Still s →
      exec .pendingAdvance s = .next { s with now := s.now + 1 })
    ∧ (∀ (w : WaitingCue) (c : CueEntry), s.resetHeld = false → s.cues.waiting = [w] → w.due ≤ s.now + 1 →
      s.cues.table[w.cue]? = some c → Still s →
      let u : State := { s with now := s.now + 1, cues := { s.cues with waiting := [] } }
      (∀ scene cue, c.action = .linkCue scene cue →
        let f : QueuedFrame := .cue (s.now + 1) w.cue scene [byteOf cue, byteOf s.tracker.lap.toNat]
        (s.link.queue.length < 8 → ∃ t, exec .pendingAdvance s = .next t
          ∧ t.link.queue = joinCue f s.link.queue
          ∧ t = { u with
              draws := t.draws
              link := { s.link with queue := t.link.queue, access := t.link.access, slots := t.link.slots } })
        ∧ (∀ q source body, 8 ≤ s.link.queue.length → s.link.queue = q ++ [.report source body] →
          exec .pendingAdvance s = .next { u with link := { s.link with
            queue := joinCue f q, lastRefusal := some { kind := .query, reason := .queueFull, source := source } } })
        ∧ (8 ≤ s.link.queue.length → (∀ g ∈ s.link.queue, g.isCue = true) → TablesOk s →
          ∃ t, exec .pendingAdvance s = .next t ∧ Latched t 17 ∧ Aside u t
            ∧ t = settle (settle (latch 17 (tally .cueDropped 1 u)))))
      ∧ (∀ clip priority gains lock, c.action = .soundStart clip priority gains lock →
        let r := startVoice u { clip := clip, priority := priority, gains := gains, lock := lock, tag := .cue w.cue }
        (r.started = false → exec .pendingAdvance s = .next u)
        ∧ (r.started = true → r.stolen = none → r.ended = false →
          exec .pendingAdvance s = .next (arbitrate { u with sound := r.engine }))
        ∧ ∃ t, exec .pendingAdvance s = .next t ∧ Aside u t
          ∧ t = settle (settle (soundStart w.cue clip priority gains lock u)))
      ∧ (∀ named, c.action = .soundStop named →
        ((∀ v ∈ s.sound.voices, v.state = .idle ∨ v.tag ≠ .cue named) →
          cuesWhere (fun t => t = .cueDone w.cue) s = [] → exec .pendingAdvance s = .next u)
        ∧ ∃ t, exec .pendingAdvance s = .next t ∧ Aside u t ∧ t = settle (settle (soundStop w.cue named u)))
      ∧ (c.action = .invalid → exec .pendingAdvance s = .next u)))
  ∧ (∀ (s : State) (id clip priority : Nat) (gains : List Nat) (lock : Option SceneLock),
    let r := requestVoice { clip := clip, priority := priority, gains := gains, lock := lock, tag := .cue id } s
    let t := if r.2.stolen.isSome then tally .voiceSteal 1 r.1 else r.1
    soundStart id clip priority gains lock s = if r.2.ended then occurWhere (fun q => q = .cueDone id) t else t)
  ∧ (∀ (s : State) (id named : Nat),
    let r := stopVoices (fun w => w.state != .idle && w.tag = .cue named) s.sound
    soundStop id named s = occurWhere (fun q => q = .cueDone id)
      (r.2.foldl (fun a t => endWithout t a) (arbitrate { s with sound := r.1 })))

/-- R152, R153: a watch reaches its expiry: it becomes IDLE and its cue occurs. Before the expiry nothing happens. What a
position change does to a watch: it starts where the front comes into the governed zone, and ends where a forward move or
a fix leaves the front outside; a backward match and an advance of 0 µm (R37) do neither. -/
def Obligations.WatchExpires : Prop :=
  (∀ (s : State) (cue t0 : Nat) (c : CueEntry), s.cues.table[cue]? = some c → c.watching = true →
    c.watchExpiry = some t0 →
    (t0 ≤ s.now → ∃ t, exec (.watchExpiry cue) s = .next t
      ∧ t = settle (cueOccur { s with cues := { s.cues with
          table := s.cues.table.modify cue fun q => { q with watching := false, watchExpiry := none } } } cue)
      ∧ Aside s t)
    ∧ (s.now < t0 → exec (.watchExpiry cue) s = .next s))
  ∧ (∀ (r : Route) (ch : PosChange) (s : State) (id : Nat) (c : CueEntry), s.cues.table[id]? = some c →
    (c.enabled = false ∨ (∀ scene time, c.trigger ≠ .sceneTime scene time) → watchChange r ch s id = s)
    ∧ (∀ scene time, c.enabled = true → c.trigger = .sceneTime scene time →
      let inside := ∃ z, s.governedZone scene = some z ∧ z ≠ 255 ∧ s.frontZone = some z
      let comes := ∃ z, s.governedZone scene = some z ∧ comesInto r ch z = true
      let ends := ch.span.isSome = true ∨ ch.kind = .fix ∨ ch.kind = .initialFix
      (c.watching = true → ¬ inside → ends → watchChange r ch s id
        = { s with cues := { s.cues with
            table := s.cues.table.modify id fun q => { q with watching := false, watchExpiry := none } } })
      ∧ (c.watching = true → (inside ∨ ¬ ends) → watchChange r ch s id = s)
      ∧ (c.watching = false → inside → comes → watchChange r ch s id
        = judgeWatch id scene time { s with cues := { s.cues with
            table := s.cues.table.modify id fun q => { q with watching := true } } })
      ∧ (c.watching = false → ¬ (inside ∧ comes) → watchChange r ch s id = s)))
  ∧ (∀ (r : Route) (ch : PosChange) (z : Nat), comesInto r ch z = true ↔
      (∃ p f e, ch.ground = some (p, f) ∧ r.entry z = some e ∧ spanHas (1000 * r.len) p f (1000 * e) = true)
      ∨ ((ch.kind = .fix ∨ ch.kind = .initialFix) ∧ ch.oldZone ≠ some z))
  ∧ (∀ (s : State) (id scene time : Nat),
    (s.estimate scene = none → judgeWatch id scene time s
      = { s with cues := { s.cues with table := s.cues.table.modify id fun q => { q with watchExpiry := none } } })
    ∧ (∀ e, s.estimate scene = some e → sceneReached e time = true → judgeWatch id scene time s
      = cueOccur { s with cues := { s.cues with
          table := s.cues.table.modify id fun q => { q with watching := false, watchExpiry := none } } } id)
    ∧ (∀ e, s.estimate scene = some e → sceneReached e time = false → judgeWatch id scene time s
      = { s with cues := { s.cues with
          table := s.cues.table.modify id fun q => { q with watchExpiry := some (s.now + sceneWait e time) } } }))

/-- R151: the scene estimate, when it is available, and when a scene time is reached, with the wait to it. -/
def Obligations.SceneEstimate : Prop :=
  (∀ (s : State) (a : Nat) (p : Peer), s.peer a = some p → p.state = .fresh → p.kind = .scene →
    s.estimate a = some ((sceneClock p.body + (s.now - p.received)) % 16777216))
  ∧ (∀ (s : State) (a : Nat), (∀ p, s.peer a = some p → p.state ≠ .fresh ∨ p.kind ≠ .scene) → s.estimate a = none)
  ∧ (∀ e x : Nat, e < 16777216 → x < 16777216 →
    (sceneReached e x = true ↔ ((e : Int) - x) % 16777216 < 8388608)
    ∧ (sceneWait e x : Int) = ((x : Int) - e) % 16777216)

/-! ## Sound -/

/-- R169, R170, R172, R175, R177, R178: an output frame: the exact sum of sample times effective gain over the PLAYING and
FADING voices, each channel clamped to 16 bits; every such voice advances by one, and one that passes its clip's end or
ends its fade becomes IDLE. These clauses are the model's choice: that there is no frame while the reset
input is held (log 30), that a voice in CROSSFADE ends by its new stream's place and never by its old one's and that
its frames are not of a run of missing samples (log 17), that a block being read holds the fetch point (log 41), that
a looping clip plays on whoever asked for it (log 45), and the order of the reports (log 40). -/
def Obligations.FrameMixed : Prop :=
  (∀ s : State, s.resetHeld = true → exec .outputFrame s = .next s)
  ∧ (∀ s : State, s.resetHeld = false →
    (∃ t, exec .outputFrame s = .next t
      ∧ t.sound.out = [mixOut (s.sound.mixSum 0), mixOut (s.sound.mixSum 1), mixOut (s.sound.mixSum 2),
          mixOut (s.sound.mixSum 3)]
      ∧ Aside { s with sound := { s.sound with out := t.sound.out } } t
      ∧ t = settle ((s.sound.voices.zip s.sound.frames).foldl frameReport (arbitrate { s with sound := s.sound.advance })))
    ∧ (Still s → (∀ f, some f ∈ s.sound.frames → f.starves = false ∧ f.ended = none) →
      exec .outputFrame s = .next (arbitrate { s with sound := s.sound.advance })))
  ∧ (∀ (e : SoundEngine) (channel : Nat), e.mixSum channel = (e.voices.map fun w =>
      if w.state = .playing ∨ w.state = .fading then
        w.sample * (effGain e.ducks w (w.gains.getD channel 0) : Int)
      else 0).sum)
  ∧ (∀ e : SoundEngine, e.ducks = true ↔ ∃ w ∈ e.voices, w.priority = 3 ∧ w.state = .playing)
  ∧ (∀ (duck : Bool) (w : Voice) (g : Nat), let g1 := if w.priority < 3 ∧ duck = true then (g + 1) / 2 else g
    effGain duck w g = if w.state = .fading then (g1 * w.fadeStep + 32) / 64 else g1)
  ∧ (∀ sum : Int, -32768 ≤ mixOut sum ∧ mixOut sum ≤ 32767
    ∧ (-4194304 ≤ sum → sum ≤ 4194239 → 128 * mixOut sum ≤ sum + 64 ∧ sum + 64 < 128 * (mixOut sum + 1))
    ∧ (4194239 < sum → mixOut sum = 32767) ∧ (sum < -4194304 → mixOut sum = -32768))
  ∧ (∀ (bufs : List Block) (x : Nat),
    (∀ y, sampleAt bufs x = some y →
      ∃ b ∈ bufs, b.start ≤ x ∧ x < b.start + b.samples.length ∧ y = (b.samples.getD (x - b.start) 0).toInt)
    ∧ (sampleAt bufs x = none ↔ ∀ b ∈ bufs, ¬ (b.start ≤ x ∧ x < b.start + b.samples.length)))
  ∧ (∀ w : Voice,
    (∀ x b left, w.jump = .crossfade x b left →
      w.sample = ((sampleAt w.bufs w.cursor).getD 0 + (sampleAt [b] x).getD 0 + 1) / 2)
    ∧ ((∀ x b left, w.jump ≠ .crossfade x b left) → w.sample = (sampleAt w.bufs w.cursor).getD 0))
  ∧ (∀ (clip : Clip) (reading : Bool) (w : Voice), w.state = .playing ∨ w.state = .fading →
    let f := voiceFrame clip reading w
    let place := match w.jump with
      | .crossfade x _ _ => x
      | .none | .pending _ _ => w.cursor
    let passed := clip.loops = false ∧ clip.length ≤ place + 1
    f.sample = w.sample
    ∧ f.voice = { w with
        cursor := f.voice.cursor, bufs := f.voice.bufs, fetch := f.voice.fetch, jump := f.voice.jump
        underrun := f.voice.underrun, fadeStep := if w.state = .fading then w.fadeStep - 1 else w.fadeStep }
    ∧ (f.voice.underrun = true ↔ (∀ x b left, w.jump ≠ .crossfade x b left) ∧ sampleAt w.bufs w.cursor = none)
    ∧ ((∀ x b left, w.jump = .crossfade x b left → 1 < left) →
      f.voice.bufs = w.bufs.filter fun b => w.cursor + 1 < b.start + b.samples.length)
    ∧ (f.ended = some true ↔ w.state = .playing ∧ passed)
    ∧ (f.ended = some false ↔ w.state = .fading ∧ (passed ∨ w.fadeStep = 0))
    ∧ (f.starves = true ↔ (∀ x b left, w.jump ≠ .crossfade x b left) ∧ w.underrun = false ∧ sampleAt w.bufs w.cursor = none)
    ∧ (∀ x b left, w.jump = .crossfade x b left → 1 < left →
      f.voice.cursor = w.cursor + 1 ∧ f.voice.jump = .crossfade (x + 1) b (left - 1) ∧ f.voice.fetch = w.fetch)
    ∧ (∀ x b left, w.jump = .crossfade x b left → left ≤ 1 → f.voice.cursor = x + 1 ∧ f.voice.jump = .none
      ∧ f.voice.bufs = [b].filter (fun q => x + 1 < q.start + q.samples.length)
      ∧ f.voice.fetch = if reading then w.fetch else max w.fetch (x + 1))
    ∧ (∀ target n, w.jump = .pending target n → f.voice.cursor = w.cursor + 1 ∧ f.voice.jump = .pending target (n + 1)
      ∧ f.voice.fetch = max w.fetch (w.cursor + 1))
    ∧ (w.jump = .none → f.voice.cursor = w.cursor + 1 ∧ f.voice.jump = .none
      ∧ f.voice.fetch = if reading then w.fetch else max w.fetch (w.cursor + 1)))
  ∧ (∀ (e : SoundEngine) (v : Nat) (w : Voice), e.voices[v]? = some w →
    (w.state = .playing ∨ w.state = .fading →
      let f := voiceFrame ((e.clip w.clip).getD { address := 0, length := 0, loops := false }) (e.reading v) w
      e.frames[v]? = some (some f)
      ∧ (f.ended.isSome = true → e.advance.voices[v]? = some Voice.idle)
      ∧ (f.ended = none → ∃ k, k ≤ w.rank ∧ e.advance.voices[v]? = some { f.voice with rank := k }))
    ∧ (w.state ≠ .playing → w.state ≠ .fading →
      e.frames[v]? = some none ∧ ∃ k, k ≤ w.rank ∧ e.advance.voices[v]? = some { w with rank := k }))

/-- R163, R164, R171, R174, R175: a start request: refused when the clip is absent or every voice is active at its
priority or above; else the lowest-numbered IDLE voice, or the victim of lowest priority and then lowest start order, in
which the request is placed. A stop request at a voice. The check of a locked voice, and its jump. -/
def Obligations.VoiceChosen : Prop :=
  (∀ (s : State) (req : StartRequest),
    (s.sound.clip req.clip = none → (startVoice s req).started = false ∧ (startVoice s req).engine = s.sound)
    ∧ (∀ v, s.sound.target req.priority = some v → (∃ w, s.sound.voices[v]? = some w
        ∧ ((w.state = .idle ∧ ∀ i x, i < v → s.sound.voices[i]? = some x → x.state ≠ .idle)
          ∨ (w.state ≠ .idle ∧ w.priority < req.priority ∧ (∀ x ∈ s.sound.voices, x.state ≠ .idle)
            ∧ ∀ x ∈ s.sound.voices, x.priority < req.priority →
              w.priority < x.priority ∨ (w.priority = x.priority ∧ w.rank ≤ x.rank)))))
    ∧ (s.sound.target req.priority = none ↔
      ∀ x ∈ s.sound.voices, x.state ≠ .idle ∧ req.priority ≤ x.priority)
    ∧ (s.sound.clip req.clip ≠ none → ((startVoice s req).started = true ↔ s.sound.target req.priority ≠ none))
    ∧ (s.sound.target req.priority = none → (startVoice s req).engine = s.sound ∧ (startVoice s req).stolen = none)
    ∧ (∀ v w c, s.sound.target req.priority = some v → s.sound.voices[v]? = some w → s.sound.clip req.clip = some c →
      let r := startVoice s req
      let place := placeVoice s.now (match req.lock with | none => none | some l => s.estimate l.scene) c req
        ((s.sound.free v).activeCount + 1)
      r.stolen = (if w.state = .idle then none else some w.tag)
      ∧ (∀ q, place = some q → r.ended = false ∧ r.engine.voices[v]? = some q)
      ∧ (place = none → r.ended = true ∧ ∃ q, r.engine.voices[v]? = some q ∧ q.state = .idle)
      ∧ (∀ i x, i ≠ v → s.sound.voices[i]? = some x → r.engine.voices[i]? = some { x with
          rank := if w.state ≠ .idle ∧ w.rank < x.rank then x.rank - 1 else x.rank })))
  ∧ (∀ (now : Nat) (clip : Clip) (req : StartRequest) (rank : Nat),
    let base : Voice := { Voice.idle with
      state := .fetching, clip := req.clip, gains := req.gains, priority := req.priority, lock := req.lock
      tag := req.tag, rank := rank }
    (∀ e, req.lock = none ∨ e = none → placeVoice now e clip req rank = some base)
    ∧ (∀ l e, req.lock = some l → sceneReached e l.anchor = false →
      placeVoice now (some e) clip req rank
        = some { base with waitExpiry := some (now + sceneWait e l.anchor), lastCheck := some now })
    ∧ (∀ l e, req.lock = some l → sceneReached e l.anchor = true →
      let x := sceneSince e l.anchor * 24
      (clip.loops = true → placeVoice now (some e) clip req rank
        = some { base with cursor := x % clip.length, fetch := x % clip.length, lastCheck := some now })
      ∧ (clip.loops = false → clip.length ≤ x → placeVoice now (some e) clip req rank = none)
      ∧ (clip.loops = false → x < clip.length →
        placeVoice now (some e) clip req rank = some { base with cursor := x, fetch := x, lastCheck := some now })))
  ∧ (∀ (e : SoundEngine) (v : Nat) (w : Voice), e.voices[v]? = some w →
    let r := stopVoice e v
    (w.state = .playing → r.2 = none ∧ ∃ q, r.1.voices[v]? = some q ∧ q.state = .fading ∧ q.fadeStep = 63
      ∧ q.cursor = w.cursor ∧ q.bufs = w.bufs
      ∧ ((∀ target n, w.jump ≠ .pending target n) → q.jump = w.jump ∧ q.fetch = w.fetch ∧ r.1.read = e.read)
      ∧ (∀ target n, w.jump = .pending target n → q.jump = .none ∧ q.fetch = max w.fetch w.cursor
        ∧ r.1.reading v = false))
    ∧ (w.state = .fetching ∨ w.state = .waiting →
      r.1.voices[v]? = some Voice.idle ∧ r.1.reading v = false ∧ r.2 = some w.tag)
    ∧ (w.state = .fading ∨ w.state = .idle → r = (e, none)))
  ∧ (∀ (clip : Clip) (cursor x : Nat), driftOf clip cursor x
      = if clip.loops then
          min (ahead clip.length (x % clip.length) (cursor % clip.length))
            (clip.length - ahead clip.length (x % clip.length) (cursor % clip.length))
        else max (cursor - x) (x - cursor))
  ∧ (∀ (resync now : Nat) (w : Voice), checkDue resync now w = true ↔
      resync ≠ 0 ∧ (w.lastCheck = none ∨ ∃ t, w.lastCheck = some t ∧ resync ≤ now - t))
  ∧ (∀ (now estimate anchor v : Nat) (w : Voice) (clip : Clip) (e : SoundEngine), e.voices[v]? = some w →
    w.state ≠ .idle →
    let r := checkVoice now estimate anchor v w clip e
    let x := sceneSince estimate anchor * 24
    (sceneReached estimate anchor = false → r.2 = none ∧ r.1.reading v = false
      ∧ r.1.voices[v]? = some { w with
          state := .waiting, bufs := [], cursor := 0, fetch := 0, lastCheck := some now, underrun := false
          waitExpiry := some (now + sceneWait estimate anchor) })
    ∧ (sceneReached estimate anchor = true → clip.loops = false → clip.length ≤ x →
      r.2 = some w.tag ∧ r.1.reading v = false ∧ r.1.voices[v]? = some Voice.idle)
    ∧ (sceneReached estimate anchor = true → (clip.loops = true ∨ x < clip.length) → driftOf clip w.cursor x ≤ 480 →
      r.2 = none ∧ r.1.read = e.read ∧ r.1.voices[v]? = some { w with lastCheck := some now })
    ∧ (sceneReached estimate anchor = true → (clip.loops = true ∨ x < clip.length) → 480 < driftOf clip w.cursor x →
      r.2 = none ∧ r.1.reading v = false ∧ r.1.voices[v]? = some { w with
        bufs := w.bufs.filter fun b => b.start ≤ w.cursor && w.cursor < b.start + b.samples.length
        fetch := max w.fetch w.cursor
        jump := .pending (if clip.loops then x % clip.length else x) 0
        lastCheck := some now }))
  ∧ (∀ (p : Voice → Bool) (e : SoundEngine) (v : Nat) (w : Voice), (∀ q k, p { q with rank := k } = p q) →
    e.voices[v]? = some w →
    let after := (stopVoices p e).1.voices[v]?
    (p w = false ∨ w.state = .idle ∨ w.state = .fading → ∃ k, k ≤ w.rank ∧ after = some { w with rank := k })
    ∧ (p w = true → w.state = .fetching ∨ w.state = .waiting → after = some Voice.idle)
    ∧ (p w = true → w.state = .playing → ∃ q k, (stopVoice e v).1.voices[v]? = some q ∧ k ≤ w.rank
      ∧ after = some { q with rank := k }))

/-- R168, R165, R166, R175: the read granted to a voice at a local time completes and frees the port; a FETCHING voice
leaves FETCHING, and a PENDING jump becomes CROSSFADE. A completion whose read has ended finds no read (log 44). A WAITING
voice plays at its wait expiry. -/
def Obligations.ReadsComplete : Prop :=
  (∀ (s : State) (voice granted : Nat) (samples : List Half) (r : Read) (w : Voice), s.sound.read = some r →
    r.voice = voice → r.timeout = granted + 2 → s.sound.voices[voice]? = some w →
    ∃ t v, exec (.fetchComplete ⟨voice, granted, samples⟩) s = .next t
      ∧ (∀ q, t.sound.read = some q → q.timeout = s.now + 2)
      ∧ Aside s t
      ∧ v = blockArrives s.now (blockOf r samples) w
      ∧ (w.state = .fetching → w.jump = .none → (∀ t0, w.waitExpiry = some t0 → t0 ≤ s.now) →
        v.state = .playing ∧ v.waitExpiry = none)
      ∧ (∀ t0, w.state = .fetching → w.jump = .none → w.waitExpiry = some t0 → s.now < t0 → v.state = .waiting)
      ∧ (w.jump = .none → v.fetch = max (r.start + r.size) w.cursor
        ∧ v.bufs = (w.bufs ++ [blockOf r samples]).filter fun b => w.cursor < b.start + b.samples.length)
      ∧ (∀ target n, w.jump = .pending target n → v = { w with
          jump := .crossfade (target + n) (blockOf r samples) 64, fetch := max (r.start + r.size) (target + n) })
      ∧ (s.motion.notices = [] → judgeStanding s = s → t.sound.voices = s.sound.voices.set voice v))
  ∧ (∀ (s : State) (voice granted : Nat) (samples : List Half),
    (∀ r, s.sound.read = some r → r.voice ≠ voice ∨ r.timeout ≠ granted + 2) →
    exec (.fetchComplete ⟨voice, granted, samples⟩) s = .next s)
  ∧ (∀ (s : State) (voice t0 : Nat) (w : Voice), s.sound.voices[voice]? = some w → w.state = .waiting →
    w.waitExpiry = some t0 → t0 ≤ s.now → Still s →
    ∃ t, exec (.waitExpiry voice) s = .next t
      ∧ t = { s with sound := { s.sound with
          voices := s.sound.voices.set voice { w with state := .playing, waitExpiry := none }, read := t.sound.read } })

/-- R168, R173: a read not done at its timeout: SOUND_FAULT is latched, the voice of the read becomes IDLE (what
SOUND_FAULT leads to may start an announcement in it), the read no longer stands, and the part goes on. Where SOUND_FAULT
raises no level, fills no first-fault record and makes no announcement, and the voice is a cue's, the next state is given
whole. Before its timeout, or without a read, nothing happens. -/
def Obligations.ReadTimesOut : Prop :=
  ∀ s : State,
    (∀ r, s.sound.read = some r → r.timeout ≤ s.now → TablesOk s →
      ∃ t, exec .fetchTimeout s = .next t ∧ Latched t 18 ∧ Aside s t ∧ t.sound.read ≠ some r
        ∧ (∀ q, t.sound.read = some q → q.timeout = s.now + 2)
        ∧ ∀ w, s.sound.voices[r.voice]? = some w →
          ∃ v, t.sound.voices[r.voice]? = some v ∧ (v.state = .idle ∨ v.state = .fetching))
    ∧ (∀ r w id c, s.sound.read = some r → r.timeout ≤ s.now → s.sound.voices[r.voice]? = some w → w.state ≠ .idle →
      w.tag = .cue id → s.cond.record 18 = some c → c.announceFirst = false → c.level < 4 → c.level ≤ s.level →
      LevelOk s → Still s →
      ∃ t, exec .fetchTimeout s = .next t
        ∧ t.sound.voices[r.voice]? = some Voice.idle
        ∧ (∀ v x, v ≠ r.voice → s.sound.voices[v]? = some x →
          t.sound.voices[v]? = some { x with rank := if w.rank < x.rank then x.rank - 1 else x.rank })
        ∧ t = { s with
            cond := { s.cond with records := s.cond.records.set 17 { c with latched := true } }
            sound := { s.sound with voices := t.sound.voices, read := t.sound.read } })
    ∧ (∀ r, s.sound.read = some r → s.now < r.timeout → exec .fetchTimeout s = .next s)
    ∧ (s.sound.read = none → exec .fetchTimeout s = .next s)

end
end

