-- ==== Sys2Proof/Laws/Engine.lean ====
section
/-! SUPPORT. For each operation of the Sound Engine that the shared operations use, once, what it does (`EngineCalm`): the
clips and the output stay, a read is ended or granted now (R167, R168), and a voice that is IDLE or FETCHING stays so,
while any other keeps its tag or becomes one of the two (R163, R171). -/
namespace Sys2Proof.Safety
open Sys2Proof.Machine

/-- The voice is IDLE or FETCHING. -/
def Quiet (w : Voice) : Prop := w.state = .idle ∨ w.state = .fetching

/-- What the shared operations do to one voice. -/
structure VoiceCalm (w x : Voice) : Prop where
  quiet : Quiet w → Quiet x
  tag : x.tag = w.tag ∨ Quiet x

theorem VoiceCalm.refl (w : Voice) : VoiceCalm w w := ⟨id, Or.inl rfl⟩

theorem VoiceCalm.trans {a b c : Voice} (h : VoiceCalm a b) (g : VoiceCalm b c) : VoiceCalm a c :=
  ⟨g.quiet ∘ h.quiet, h.tag.elim (fun e => g.tag.elim (fun f => Or.inl (f.trans e)) Or.inr) fun q => Or.inr (g.quiet q)⟩

theorem VoiceCalm.of_quiet {w x : Voice} (h : Quiet x) : VoiceCalm w x := ⟨fun _ => h, Or.inr h⟩

/-- What the shared operations do to the voices, one by one. -/
def VoicesCalm (vs ws : List Voice) : Prop :=
  ∀ (v : Nat) (w : Voice), vs[v]? = some w → ∃ x, ws[v]? = some x ∧ VoiceCalm w x

theorem VoicesCalm.refl (vs : List Voice) : VoicesCalm vs vs := fun _ w h => ⟨w, h, VoiceCalm.refl w⟩

theorem VoicesCalm.trans {a b c : List Voice} (h : VoicesCalm a b) (g : VoicesCalm b c) : VoicesCalm a c := fun v w e => by
  obtain ⟨x, e1, r1⟩ := h v w e
  obtain ⟨y, e2, r2⟩ := g v x e1
  exact ⟨y, e2, r1.trans r2⟩

/-- One voice is replaced. -/
theorem VoicesCalm.set {vs : List Voice} {v : Nat} {x : Voice} (h : ∀ w, vs[v]? = some w → VoiceCalm w x) :
    VoicesCalm vs (vs.set v x) := fun i w e => by
  by_cases hi : v = i
  · subst hi
    obtain ⟨hl, _⟩ := List.getElem?_eq_some_iff.mp e
    exact ⟨x, by simp [hl], h w e⟩
  · exact ⟨w, by rw [List.getElem?_set_ne hi]; exact e, VoiceCalm.refl w⟩

/-- A change of every voice. -/
theorem VoicesCalm.map (vs : List Voice) (f : Voice → Voice) (h : ∀ w, VoiceCalm w (f w)) : VoicesCalm vs (vs.map f) :=
  fun v w e => ⟨f w, by rw [List.getElem?_map, e]; rfl, h w⟩

/-- What the shared operations do to the engine at a local time. -/
structure EngineCalm (now : Nat) (e f : SoundEngine) : Prop where
  clips : f.clips = e.clips
  out : f.out = e.out
  length : f.voices.length = e.voices.length
  read : f.read = e.read ∨ f.read = none ∨ ∃ q, f.read = some q ∧ q.timeout = now + 2
  voices : VoicesCalm e.voices f.voices

theorem EngineCalm.refl (now : Nat) (e : SoundEngine) : EngineCalm now e e := ⟨rfl, rfl, rfl, Or.inl rfl, VoicesCalm.refl _⟩

theorem EngineCalm.trans {now : Nat} {a b c : SoundEngine} (h : EngineCalm now a b) (g : EngineCalm now b c) :
    EngineCalm now a c :=
  ⟨g.clips.trans h.clips, g.out.trans h.out, g.length.trans h.length,
    g.read.elim (fun e => by rw [e]; exact h.read) Or.inr, h.voices.trans g.voices⟩

/-- One voice is replaced. -/
theorem EngineCalm.set (now : Nat) (e : SoundEngine) {v : Nat} {x : Voice}
    (h : ∀ w, e.voices[v]? = some w → VoiceCalm w x) : EngineCalm now e { e with voices := e.voices.set v x } :=
  ⟨rfl, rfl, by simp, Or.inl rfl, VoicesCalm.set h⟩

theorem endRead_calm (now : Nat) (e : SoundEngine) (v : Nat) : EngineCalm now e (e.endRead v) := by
  unfold SoundEngine.endRead
  split
  · exact ⟨rfl, rfl, rfl, Or.inr (Or.inl rfl), VoicesCalm.refl _⟩
  · exact EngineCalm.refl now e

theorem endRead_voices (e : SoundEngine) (v : Nat) : (e.endRead v).voices = e.voices := by
  unfold SoundEngine.endRead; split <;> rfl

theorem free_calm (now : Nat) (e : SoundEngine) (v : Nat) : EngineCalm now e (e.free v) := by
  unfold SoundEngine.free
  split
  · exact EngineCalm.refl now e
  · split
    · exact EngineCalm.refl now e
    · rename_i w _ _
      have h := endRead_calm now e v
      refine ⟨h.clips, h.out, by simp, h.read, ?_⟩
      refine (VoicesCalm.map e.voices (fun q => if w.rank < q.rank then { q with rank := q.rank - 1 } else q) fun q => ?_).trans
        (VoicesCalm.set fun _ _ => VoiceCalm.of_quiet (Or.inl rfl))
      split
      · exact ⟨id, Or.inl rfl⟩
      · exact VoiceCalm.refl q

/-- R167: a grant changes the read alone. -/
theorem arbitrate_eq (s : State) : ∃ r, arbitrate s = { s with sound := { s.sound with read := r } } := by
  unfold arbitrate
  split
  · exact ⟨s.sound.read, rfl⟩
  · split
    · exact ⟨s.sound.read, rfl⟩
    · exact ⟨_, rfl⟩

theorem arbitrate_engine (s : State) : EngineCalm s.now s.sound (arbitrate s).sound := by
  unfold arbitrate
  split
  · exact EngineCalm.refl _ _
  · split
    · exact EngineCalm.refl _ _
    · exact ⟨rfl, rfl, rfl, Or.inr (Or.inr ⟨_, rfl, rfl⟩), VoicesCalm.refl _⟩

/-- R164: a voice is placed in FETCHING. -/
theorem placeVoice_fetching {now : Nat} {estimate : Option Nat} {clip : Clip} {req : StartRequest} {rank : Nat} {w : Voice}
    (h : placeVoice now estimate clip req rank = some w) : w.state = .fetching := by
  unfold placeVoice at h
  dsimp only at h
  repeat' split at h
  all_goals first | (injection h with h; rw [← h]) | exact absurd h (by simp)

theorem startVoice_engine (s : State) (req : StartRequest) : EngineCalm s.now s.sound (startVoice s req).engine := by
  unfold startVoice
  split
  · exact EngineCalm.refl _ _
  · split
    · exact EngineCalm.refl _ _
    · rename_i v _
      have h : EngineCalm s.now s.sound (arbitrate { s with sound := s.sound.free v }).sound :=
        (free_calm s.now s.sound v).trans (arbitrate_engine { s with sound := s.sound.free v })
      dsimp only
      split
      · exact h
      · rename_i w e
        exact h.trans (EngineCalm.set s.now _ fun _ _ => VoiceCalm.of_quiet (Or.inr (placeVoice_fetching e)))

theorem stopVoice_engine (now : Nat) (e : SoundEngine) (v : Nat) : EngineCalm now e (stopVoice e v).1 := by
  have fade : ∀ (w x : Voice), e.voices[v]? = some w → w.state = .playing → x.tag = w.tag →
      ∀ q, e.voices[v]? = some q → VoiceCalm q x := by
    intro w x h hs ht q hq
    rw [h] at hq
    injection hq with hq
    subst hq
    exact ⟨fun g => by rcases g with g | g <;> rw [hs] at g <;> simp at g, Or.inl ht⟩
  unfold stopVoice
  split
  · exact EngineCalm.refl now e
  · rename_i w hw
    split
    · rename_i hs
      split
      · have h := endRead_calm now e v
        exact ⟨h.clips, h.out, by simp, h.read, VoicesCalm.set (fade w _ hw hs rfl)⟩
      · exact EngineCalm.set now e (fade w _ hw hs rfl)
      · exact EngineCalm.set now e (fade w _ hw hs rfl)
    · exact free_calm now e v
    · exact free_calm now e v
    · exact EngineCalm.refl now e
    · exact EngineCalm.refl now e

theorem stopVoices_engine (now : Nat) (p : Voice → Bool) (e : SoundEngine) : EngineCalm now e (stopVoices p e).1 := by
  unfold stopVoices
  suffices h : ∀ (vs : List Nat) (acc : SoundEngine × List VoiceTag), EngineCalm now e acc.1 →
      EngineCalm now e (vs.foldl (fun (acc : SoundEngine × List VoiceTag) v =>
        match acc.1.voices[v]? with
        | none => acc
        | some w => if p w then ((stopVoice acc.1 v).1, acc.2 ++ (stopVoice acc.1 v).2.toList) else acc) acc).1 from
    h _ (e, []) (EngineCalm.refl now e)
  intro vs
  induction vs with
  | nil => intro acc h; exact h
  | cons v vs ih =>
    intro acc h
    refine ih _ ?_
    dsimp only
    split
    · exact h
    · split
      · exact h.trans (stopVoice_engine now acc.1 v)
      · exact h

theorem checkVoice_engine (now estimate anchor v : Nat) (w : Voice) (clip : Clip) (e : SoundEngine)
    (hw : e.voices[v]? = some w) (hs : w.state = .playing) :
    EngineCalm now e (checkVoice now estimate anchor v w clip e).1 := by
  have same : ∀ x : Voice, x.tag = w.tag → ∀ q, e.voices[v]? = some q → VoiceCalm q x := by
    intro x ht q hq
    rw [hw] at hq
    injection hq with hq
    subst hq
    exact ⟨fun g => by rcases g with g | g <;> rw [hs] at g <;> simp at g, Or.inl ht⟩
  have h := endRead_calm now e v
  unfold checkVoice
  split
  · dsimp only
    split
    · exact free_calm now e v
    · split
      · exact EngineCalm.set now e (same _ rfl)
      · exact ⟨h.clips, h.out, by simp, h.read, VoicesCalm.set (same _ rfl)⟩
  · exact ⟨h.clips, h.out, by simp, h.read, VoicesCalm.set (same _ rfl)⟩

theorem beaconVoice_engine (now resync scene estimate : Nat) (e : SoundEngine) (v : Nat) :
    EngineCalm now e (beaconVoice now resync scene estimate e v).1 := by
  unfold beaconVoice
  split
  · exact EngineCalm.refl now e
  · rename_i w hw
    have waiting : w.state = .waiting → ∀ x : Voice, x.tag = w.tag → ∀ q, e.voices[v]? = some q → VoiceCalm q x := by
      intro hs x ht q hq
      rw [hw] at hq
      injection hq with hq
      subst hq
      exact ⟨fun g => by rcases g with g | g <;> rw [hs] at g <;> simp at g, Or.inl ht⟩
    split
    · exact EngineCalm.refl now e
    · split
      · exact EngineCalm.refl now e
      · split
        · rename_i hs
          split
          · exact EngineCalm.set now e (waiting hs _ rfl)
          · exact EngineCalm.set now e (waiting hs _ rfl)
        · split
          · rename_i hp
            simp only [Bool.and_eq_true, decide_eq_true_eq] at hp
            split
            · exact EngineCalm.refl now e
            · exact checkVoice_engine now estimate _ v w _ e hw hp.1.1
          · exact EngineCalm.refl now e

theorem dropRead_engine (now : Nat) (e : SoundEngine) (r : Read) (active : Bool) :
    EngineCalm now e (e.dropRead r active) := by
  have h : EngineCalm now e (if active then e.free r.voice else e) := by
    split
    · exact free_calm now e r.voice
    · exact EngineCalm.refl now e
  unfold SoundEngine.dropRead
  dsimp only
  generalize (if active = true then e.free r.voice else e) = f at h ⊢
  split
  · exact h.trans ⟨rfl, rfl, rfl, Or.inr (Or.inl rfl), VoicesCalm.refl _⟩
  · exact h

end Sys2Proof.Safety
end

