-- ==== Sys2Proof/Laws/State.lean ====
section
/-! SUPPORT. One lemma per field for each named update of the state, true by rfl, so that no proof unfolds a record
update. -/
namespace Sys2Proof.Machine

/-! ### enter -/

@[simp] theorem enter_pending (st : MotionState) (s : State) : (enter st s).pending = s.pending := rfl
@[simp] theorem enter_now (st : MotionState) (s : State) : (enter st s).now = s.now := rfl
@[simp] theorem enter_draws (st : MotionState) (s : State) : (enter st s).draws = s.draws := rfl
@[simp] theorem enter_resetHeld (st : MotionState) (s : State) : (enter st s).resetHeld = s.resetHeld := rfl
@[simp] theorem enter_driveFaultIn (st : MotionState) (s : State) : (enter st s).driveFaultIn = s.driveFaultIn := rfl
@[simp] theorem enter_localStopIn (st : MotionState) (s : State) : (enter st s).localStopIn = s.localStopIn := rfl
@[simp] theorem enter_settings (st : MotionState) (s : State) : (enter st s).settings = s.settings := rfl
@[simp] theorem enter_link (st : MotionState) (s : State) : (enter st s).link = s.link := rfl
@[simp] theorem enter_peers (st : MotionState) (s : State) : (enter st s).peers = s.peers := rfl
@[simp] theorem enter_route (st : MotionState) (s : State) : (enter st s).route = s.route := rfl
@[simp] theorem enter_tracker (st : MotionState) (s : State) : (enter st s).tracker = s.tracker := rfl
@[simp] theorem enter_claims (st : MotionState) (s : State) : (enter st s).claims = s.claims := rfl
@[simp] theorem enter_restraint (st : MotionState) (s : State) : (enter st s).restraint = s.restraint := rfl
@[simp] theorem enter_cond (st : MotionState) (s : State) : (enter st s).cond = s.cond := rfl
@[simp] theorem enter_cues (st : MotionState) (s : State) : (enter st s).cues = s.cues := rfl
@[simp] theorem enter_sound (st : MotionState) (s : State) : (enter st s).sound = s.sound := rfl
@[simp] theorem enter_loader (st : MotionState) (s : State) : (enter st s).loader = s.loader := rfl
@[simp] theorem enter_state (st : MotionState) (s : State) : (enter st s).motion.state = st := rfl
@[simp] theorem enter_notices (st : MotionState) (s : State) : (enter st s).motion.notices = s.motion.notices ++ [st] := rfl
@[simp] theorem enter_dPrev (st : MotionState) (s : State) : (enter st s).motion.dPrev = s.motion.dPrev := rfl
@[simp] theorem enter_immediate (st : MotionState) (s : State) : (enter st s).motion.immediate = s.motion.immediate := rfl
@[simp] theorem enter_atStation (st : MotionState) (s : State) : (enter st s).motion.atStation = s.motion.atStation := rfl
@[simp] theorem enter_record (st : MotionState) (s : State) : (enter st s).motion.record = s.motion.record := rfl

/-! ### onRecord -/

@[simp] theorem onRecord_pending (id : Nat) (f : Condition → Condition) (s : State) : (onRecord id f s).pending = s.pending := rfl
@[simp] theorem onRecord_now (id : Nat) (f : Condition → Condition) (s : State) : (onRecord id f s).now = s.now := rfl
@[simp] theorem onRecord_draws (id : Nat) (f : Condition → Condition) (s : State) : (onRecord id f s).draws = s.draws := rfl
@[simp] theorem onRecord_resetHeld (id : Nat) (f : Condition → Condition) (s : State) : (onRecord id f s).resetHeld = s.resetHeld := rfl
@[simp] theorem onRecord_driveFaultIn (id : Nat) (f : Condition → Condition) (s : State) : (onRecord id f s).driveFaultIn = s.driveFaultIn := rfl
@[simp] theorem onRecord_localStopIn (id : Nat) (f : Condition → Condition) (s : State) : (onRecord id f s).localStopIn = s.localStopIn := rfl
@[simp] theorem onRecord_settings (id : Nat) (f : Condition → Condition) (s : State) : (onRecord id f s).settings = s.settings := rfl
@[simp] theorem onRecord_link (id : Nat) (f : Condition → Condition) (s : State) : (onRecord id f s).link = s.link := rfl
@[simp] theorem onRecord_peers (id : Nat) (f : Condition → Condition) (s : State) : (onRecord id f s).peers = s.peers := rfl
@[simp] theorem onRecord_route (id : Nat) (f : Condition → Condition) (s : State) : (onRecord id f s).route = s.route := rfl
@[simp] theorem onRecord_tracker (id : Nat) (f : Condition → Condition) (s : State) : (onRecord id f s).tracker = s.tracker := rfl
@[simp] theorem onRecord_motion (id : Nat) (f : Condition → Condition) (s : State) : (onRecord id f s).motion = s.motion := rfl
@[simp] theorem onRecord_claims (id : Nat) (f : Condition → Condition) (s : State) : (onRecord id f s).claims = s.claims := rfl
@[simp] theorem onRecord_restraint (id : Nat) (f : Condition → Condition) (s : State) : (onRecord id f s).restraint = s.restraint := rfl
@[simp] theorem onRecord_cues (id : Nat) (f : Condition → Condition) (s : State) : (onRecord id f s).cues = s.cues := rfl
@[simp] theorem onRecord_sound (id : Nat) (f : Condition → Condition) (s : State) : (onRecord id f s).sound = s.sound := rfl
@[simp] theorem onRecord_loader (id : Nat) (f : Condition → Condition) (s : State) : (onRecord id f s).loader = s.loader := rfl
@[simp] theorem onRecord_firstFault (id : Nat) (f : Condition → Condition) (s : State) : (onRecord id f s).cond.firstFault = s.cond.firstFault := rfl
@[simp] theorem onRecord_counters (id : Nat) (f : Condition → Condition) (s : State) : (onRecord id f s).cond.counters = s.cond.counters := rfl
@[simp] theorem onRecord_frozen (id : Nat) (f : Condition → Condition) (s : State) : (onRecord id f s).cond.frozen = s.cond.frozen := rfl
@[simp] theorem onRecord_durations (id : Nat) (f : Condition → Condition) (s : State) : (onRecord id f s).cond.durations = s.cond.durations := rfl
@[simp] theorem onRecord_handed (id : Nat) (f : Condition → Condition) (s : State) : (onRecord id f s).cond.handed = s.cond.handed := rfl

/-! ### refuse -/

@[simp] theorem refuse_pending (kind : CommandKind) (reason : RefusalReason) (source : Nat) (s : State) : (refuse kind reason source s).pending = s.pending := rfl
@[simp] theorem refuse_now (kind : CommandKind) (reason : RefusalReason) (source : Nat) (s : State) : (refuse kind reason source s).now = s.now := rfl
@[simp] theorem refuse_draws (kind : CommandKind) (reason : RefusalReason) (source : Nat) (s : State) : (refuse kind reason source s).draws = s.draws := rfl
@[simp] theorem refuse_resetHeld (kind : CommandKind) (reason : RefusalReason) (source : Nat) (s : State) : (refuse kind reason source s).resetHeld = s.resetHeld := rfl
@[simp] theorem refuse_driveFaultIn (kind : CommandKind) (reason : RefusalReason) (source : Nat) (s : State) : (refuse kind reason source s).driveFaultIn = s.driveFaultIn := rfl
@[simp] theorem refuse_localStopIn (kind : CommandKind) (reason : RefusalReason) (source : Nat) (s : State) : (refuse kind reason source s).localStopIn = s.localStopIn := rfl
@[simp] theorem refuse_settings (kind : CommandKind) (reason : RefusalReason) (source : Nat) (s : State) : (refuse kind reason source s).settings = s.settings := rfl
@[simp] theorem refuse_peers (kind : CommandKind) (reason : RefusalReason) (source : Nat) (s : State) : (refuse kind reason source s).peers = s.peers := rfl
@[simp] theorem refuse_route (kind : CommandKind) (reason : RefusalReason) (source : Nat) (s : State) : (refuse kind reason source s).route = s.route := rfl
@[simp] theorem refuse_tracker (kind : CommandKind) (reason : RefusalReason) (source : Nat) (s : State) : (refuse kind reason source s).tracker = s.tracker := rfl
@[simp] theorem refuse_motion (kind : CommandKind) (reason : RefusalReason) (source : Nat) (s : State) : (refuse kind reason source s).motion = s.motion := rfl
@[simp] theorem refuse_claims (kind : CommandKind) (reason : RefusalReason) (source : Nat) (s : State) : (refuse kind reason source s).claims = s.claims := rfl
@[simp] theorem refuse_restraint (kind : CommandKind) (reason : RefusalReason) (source : Nat) (s : State) : (refuse kind reason source s).restraint = s.restraint := rfl
@[simp] theorem refuse_cond (kind : CommandKind) (reason : RefusalReason) (source : Nat) (s : State) : (refuse kind reason source s).cond = s.cond := rfl
@[simp] theorem refuse_cues (kind : CommandKind) (reason : RefusalReason) (source : Nat) (s : State) : (refuse kind reason source s).cues = s.cues := rfl
@[simp] theorem refuse_sound (kind : CommandKind) (reason : RefusalReason) (source : Nat) (s : State) : (refuse kind reason source s).sound = s.sound := rfl
@[simp] theorem refuse_loader (kind : CommandKind) (reason : RefusalReason) (source : Nat) (s : State) : (refuse kind reason source s).loader = s.loader := rfl
@[simp] theorem refuse_lastRefusal (kind : CommandKind) (reason : RefusalReason) (source : Nat) (s : State) : (refuse kind reason source s).link.lastRefusal = some ⟨kind, reason, source⟩ := rfl
@[simp] theorem refuse_queue (kind : CommandKind) (reason : RefusalReason) (source : Nat) (s : State) : (refuse kind reason source s).link.queue = s.link.queue := rfl

/-! ### setPeer -/

@[simp] theorem setPeer_pending (address : Nat) (p : Option Peer) (s : State) : (setPeer address p s).pending = s.pending := rfl
@[simp] theorem setPeer_now (address : Nat) (p : Option Peer) (s : State) : (setPeer address p s).now = s.now := rfl
@[simp] theorem setPeer_draws (address : Nat) (p : Option Peer) (s : State) : (setPeer address p s).draws = s.draws := rfl
@[simp] theorem setPeer_resetHeld (address : Nat) (p : Option Peer) (s : State) : (setPeer address p s).resetHeld = s.resetHeld := rfl
@[simp] theorem setPeer_driveFaultIn (address : Nat) (p : Option Peer) (s : State) : (setPeer address p s).driveFaultIn = s.driveFaultIn := rfl
@[simp] theorem setPeer_localStopIn (address : Nat) (p : Option Peer) (s : State) : (setPeer address p s).localStopIn = s.localStopIn := rfl
@[simp] theorem setPeer_settings (address : Nat) (p : Option Peer) (s : State) : (setPeer address p s).settings = s.settings := rfl
@[simp] theorem setPeer_link (address : Nat) (p : Option Peer) (s : State) : (setPeer address p s).link = s.link := rfl
@[simp] theorem setPeer_route (address : Nat) (p : Option Peer) (s : State) : (setPeer address p s).route = s.route := rfl
@[simp] theorem setPeer_tracker (address : Nat) (p : Option Peer) (s : State) : (setPeer address p s).tracker = s.tracker := rfl
@[simp] theorem setPeer_motion (address : Nat) (p : Option Peer) (s : State) : (setPeer address p s).motion = s.motion := rfl
@[simp] theorem setPeer_claims (address : Nat) (p : Option Peer) (s : State) : (setPeer address p s).claims = s.claims := rfl
@[simp] theorem setPeer_restraint (address : Nat) (p : Option Peer) (s : State) : (setPeer address p s).restraint = s.restraint := rfl
@[simp] theorem setPeer_cond (address : Nat) (p : Option Peer) (s : State) : (setPeer address p s).cond = s.cond := rfl
@[simp] theorem setPeer_cues (address : Nat) (p : Option Peer) (s : State) : (setPeer address p s).cues = s.cues := rfl
@[simp] theorem setPeer_sound (address : Nat) (p : Option Peer) (s : State) : (setPeer address p s).sound = s.sound := rfl
@[simp] theorem setPeer_loader (address : Nat) (p : Option Peer) (s : State) : (setPeer address p s).loader = s.loader := rfl

/-! ### setSeat -/

@[simp] theorem setSeat_pending (i : Nat) (q : Seat) (s : State) : (setSeat i q s).pending = s.pending := rfl
@[simp] theorem setSeat_now (i : Nat) (q : Seat) (s : State) : (setSeat i q s).now = s.now := rfl
@[simp] theorem setSeat_draws (i : Nat) (q : Seat) (s : State) : (setSeat i q s).draws = s.draws := rfl
@[simp] theorem setSeat_resetHeld (i : Nat) (q : Seat) (s : State) : (setSeat i q s).resetHeld = s.resetHeld := rfl
@[simp] theorem setSeat_driveFaultIn (i : Nat) (q : Seat) (s : State) : (setSeat i q s).driveFaultIn = s.driveFaultIn := rfl
@[simp] theorem setSeat_localStopIn (i : Nat) (q : Seat) (s : State) : (setSeat i q s).localStopIn = s.localStopIn := rfl
@[simp] theorem setSeat_settings (i : Nat) (q : Seat) (s : State) : (setSeat i q s).settings = s.settings := rfl
@[simp] theorem setSeat_link (i : Nat) (q : Seat) (s : State) : (setSeat i q s).link = s.link := rfl
@[simp] theorem setSeat_peers (i : Nat) (q : Seat) (s : State) : (setSeat i q s).peers = s.peers := rfl
@[simp] theorem setSeat_route (i : Nat) (q : Seat) (s : State) : (setSeat i q s).route = s.route := rfl
@[simp] theorem setSeat_tracker (i : Nat) (q : Seat) (s : State) : (setSeat i q s).tracker = s.tracker := rfl
@[simp] theorem setSeat_motion (i : Nat) (q : Seat) (s : State) : (setSeat i q s).motion = s.motion := rfl
@[simp] theorem setSeat_claims (i : Nat) (q : Seat) (s : State) : (setSeat i q s).claims = s.claims := rfl
@[simp] theorem setSeat_cond (i : Nat) (q : Seat) (s : State) : (setSeat i q s).cond = s.cond := rfl
@[simp] theorem setSeat_cues (i : Nat) (q : Seat) (s : State) : (setSeat i q s).cues = s.cues := rfl
@[simp] theorem setSeat_sound (i : Nat) (q : Seat) (s : State) : (setSeat i q s).sound = s.sound := rfl
@[simp] theorem setSeat_loader (i : Nat) (q : Seat) (s : State) : (setSeat i q s).loader = s.loader := rfl
@[simp] theorem setSeat_lines (i : Nat) (q : Seat) (s : State) : (setSeat i q s).restraint.lines = s.restraint.lines := rfl
@[simp] theorem setSeat_seats (i : Nat) (q : Seat) (s : State) : (setSeat i q s).restraint.seats = s.restraint.seats.set i q := rfl

/-! ### onCue -/

@[simp] theorem onCue_pending (id : Nat) (f : CueEntry → CueEntry) (s : State) : (onCue id f s).pending = s.pending := rfl
@[simp] theorem onCue_now (id : Nat) (f : CueEntry → CueEntry) (s : State) : (onCue id f s).now = s.now := rfl
@[simp] theorem onCue_draws (id : Nat) (f : CueEntry → CueEntry) (s : State) : (onCue id f s).draws = s.draws := rfl
@[simp] theorem onCue_resetHeld (id : Nat) (f : CueEntry → CueEntry) (s : State) : (onCue id f s).resetHeld = s.resetHeld := rfl
@[simp] theorem onCue_driveFaultIn (id : Nat) (f : CueEntry → CueEntry) (s : State) : (onCue id f s).driveFaultIn = s.driveFaultIn := rfl
@[simp] theorem onCue_localStopIn (id : Nat) (f : CueEntry → CueEntry) (s : State) : (onCue id f s).localStopIn = s.localStopIn := rfl
@[simp] theorem onCue_settings (id : Nat) (f : CueEntry → CueEntry) (s : State) : (onCue id f s).settings = s.settings := rfl
@[simp] theorem onCue_link (id : Nat) (f : CueEntry → CueEntry) (s : State) : (onCue id f s).link = s.link := rfl
@[simp] theorem onCue_peers (id : Nat) (f : CueEntry → CueEntry) (s : State) : (onCue id f s).peers = s.peers := rfl
@[simp] theorem onCue_route (id : Nat) (f : CueEntry → CueEntry) (s : State) : (onCue id f s).route = s.route := rfl
@[simp] theorem onCue_tracker (id : Nat) (f : CueEntry → CueEntry) (s : State) : (onCue id f s).tracker = s.tracker := rfl
@[simp] theorem onCue_motion (id : Nat) (f : CueEntry → CueEntry) (s : State) : (onCue id f s).motion = s.motion := rfl
@[simp] theorem onCue_claims (id : Nat) (f : CueEntry → CueEntry) (s : State) : (onCue id f s).claims = s.claims := rfl
@[simp] theorem onCue_restraint (id : Nat) (f : CueEntry → CueEntry) (s : State) : (onCue id f s).restraint = s.restraint := rfl
@[simp] theorem onCue_cond (id : Nat) (f : CueEntry → CueEntry) (s : State) : (onCue id f s).cond = s.cond := rfl
@[simp] theorem onCue_sound (id : Nat) (f : CueEntry → CueEntry) (s : State) : (onCue id f s).sound = s.sound := rfl
@[simp] theorem onCue_loader (id : Nat) (f : CueEntry → CueEntry) (s : State) : (onCue id f s).loader = s.loader := rfl
@[simp] theorem onCue_waiting (id : Nat) (f : CueEntry → CueEntry) (s : State) : (onCue id f s).cues.waiting = s.cues.waiting := rfl

/-! ### endDuration -/

@[simp] theorem endDuration_pending (key : DurationKey) (s : State) : (endDuration key s).pending = s.pending := rfl
@[simp] theorem endDuration_now (key : DurationKey) (s : State) : (endDuration key s).now = s.now := rfl
@[simp] theorem endDuration_draws (key : DurationKey) (s : State) : (endDuration key s).draws = s.draws := rfl
@[simp] theorem endDuration_resetHeld (key : DurationKey) (s : State) : (endDuration key s).resetHeld = s.resetHeld := rfl
@[simp] theorem endDuration_driveFaultIn (key : DurationKey) (s : State) : (endDuration key s).driveFaultIn = s.driveFaultIn := rfl
@[simp] theorem endDuration_localStopIn (key : DurationKey) (s : State) : (endDuration key s).localStopIn = s.localStopIn := rfl
@[simp] theorem endDuration_settings (key : DurationKey) (s : State) : (endDuration key s).settings = s.settings := rfl
@[simp] theorem endDuration_link (key : DurationKey) (s : State) : (endDuration key s).link = s.link := rfl
@[simp] theorem endDuration_peers (key : DurationKey) (s : State) : (endDuration key s).peers = s.peers := rfl
@[simp] theorem endDuration_route (key : DurationKey) (s : State) : (endDuration key s).route = s.route := rfl
@[simp] theorem endDuration_tracker (key : DurationKey) (s : State) : (endDuration key s).tracker = s.tracker := rfl
@[simp] theorem endDuration_motion (key : DurationKey) (s : State) : (endDuration key s).motion = s.motion := rfl
@[simp] theorem endDuration_claims (key : DurationKey) (s : State) : (endDuration key s).claims = s.claims := rfl
@[simp] theorem endDuration_restraint (key : DurationKey) (s : State) : (endDuration key s).restraint = s.restraint := rfl
@[simp] theorem endDuration_cues (key : DurationKey) (s : State) : (endDuration key s).cues = s.cues := rfl
@[simp] theorem endDuration_sound (key : DurationKey) (s : State) : (endDuration key s).sound = s.sound := rfl
@[simp] theorem endDuration_loader (key : DurationKey) (s : State) : (endDuration key s).loader = s.loader := rfl
@[simp] theorem endDuration_records (key : DurationKey) (s : State) : (endDuration key s).cond.records = s.cond.records := rfl
@[simp] theorem endDuration_firstFault (key : DurationKey) (s : State) : (endDuration key s).cond.firstFault = s.cond.firstFault := rfl
@[simp] theorem endDuration_counters (key : DurationKey) (s : State) : (endDuration key s).cond.counters = s.cond.counters := rfl
@[simp] theorem endDuration_frozen (key : DurationKey) (s : State) : (endDuration key s).cond.frozen = s.cond.frozen := rfl
@[simp] theorem endDuration_handed (key : DurationKey) (s : State) : (endDuration key s).cond.handed = s.cond.handed := rfl

/-! ### startDuration -/

@[simp] theorem startDuration_pending (key : DurationKey) (s : State) : (startDuration key s).pending = s.pending := rfl
@[simp] theorem startDuration_now (key : DurationKey) (s : State) : (startDuration key s).now = s.now := rfl
@[simp] theorem startDuration_draws (key : DurationKey) (s : State) : (startDuration key s).draws = s.draws := rfl
@[simp] theorem startDuration_resetHeld (key : DurationKey) (s : State) : (startDuration key s).resetHeld = s.resetHeld := rfl
@[simp] theorem startDuration_driveFaultIn (key : DurationKey) (s : State) : (startDuration key s).driveFaultIn = s.driveFaultIn := rfl
@[simp] theorem startDuration_localStopIn (key : DurationKey) (s : State) : (startDuration key s).localStopIn = s.localStopIn := rfl
@[simp] theorem startDuration_settings (key : DurationKey) (s : State) : (startDuration key s).settings = s.settings := rfl
@[simp] theorem startDuration_link (key : DurationKey) (s : State) : (startDuration key s).link = s.link := rfl
@[simp] theorem startDuration_peers (key : DurationKey) (s : State) : (startDuration key s).peers = s.peers := rfl
@[simp] theorem startDuration_route (key : DurationKey) (s : State) : (startDuration key s).route = s.route := rfl
@[simp] theorem startDuration_tracker (key : DurationKey) (s : State) : (startDuration key s).tracker = s.tracker := rfl
@[simp] theorem startDuration_motion (key : DurationKey) (s : State) : (startDuration key s).motion = s.motion := rfl
@[simp] theorem startDuration_claims (key : DurationKey) (s : State) : (startDuration key s).claims = s.claims := rfl
@[simp] theorem startDuration_restraint (key : DurationKey) (s : State) : (startDuration key s).restraint = s.restraint := rfl
@[simp] theorem startDuration_cues (key : DurationKey) (s : State) : (startDuration key s).cues = s.cues := rfl
@[simp] theorem startDuration_sound (key : DurationKey) (s : State) : (startDuration key s).sound = s.sound := rfl
@[simp] theorem startDuration_loader (key : DurationKey) (s : State) : (startDuration key s).loader = s.loader := rfl
@[simp] theorem startDuration_records (key : DurationKey) (s : State) : (startDuration key s).cond.records = s.cond.records := rfl
@[simp] theorem startDuration_firstFault (key : DurationKey) (s : State) : (startDuration key s).cond.firstFault = s.cond.firstFault := rfl
@[simp] theorem startDuration_counters (key : DurationKey) (s : State) : (startDuration key s).cond.counters = s.cond.counters := rfl
@[simp] theorem startDuration_frozen (key : DurationKey) (s : State) : (startDuration key s).cond.frozen = s.cond.frozen := rfl
@[simp] theorem startDuration_handed (key : DurationKey) (s : State) : (startDuration key s).cond.handed = s.cond.handed := rfl

/-! ### carrierOff -/

@[simp] theorem carrierOff_pending (s : State) : (carrierOff s).pending = s.pending := rfl
@[simp] theorem carrierOff_now (s : State) : (carrierOff s).now = s.now := rfl
@[simp] theorem carrierOff_draws (s : State) : (carrierOff s).draws = s.draws := rfl
@[simp] theorem carrierOff_resetHeld (s : State) : (carrierOff s).resetHeld = s.resetHeld := rfl
@[simp] theorem carrierOff_driveFaultIn (s : State) : (carrierOff s).driveFaultIn = s.driveFaultIn := rfl
@[simp] theorem carrierOff_localStopIn (s : State) : (carrierOff s).localStopIn = s.localStopIn := rfl
@[simp] theorem carrierOff_settings (s : State) : (carrierOff s).settings = s.settings := rfl
@[simp] theorem carrierOff_peers (s : State) : (carrierOff s).peers = s.peers := rfl
@[simp] theorem carrierOff_route (s : State) : (carrierOff s).route = s.route := rfl
@[simp] theorem carrierOff_tracker (s : State) : (carrierOff s).tracker = s.tracker := rfl
@[simp] theorem carrierOff_motion (s : State) : (carrierOff s).motion = s.motion := rfl
@[simp] theorem carrierOff_claims (s : State) : (carrierOff s).claims = s.claims := rfl
@[simp] theorem carrierOff_restraint (s : State) : (carrierOff s).restraint = s.restraint := rfl
@[simp] theorem carrierOff_cond (s : State) : (carrierOff s).cond = s.cond := rfl
@[simp] theorem carrierOff_cues (s : State) : (carrierOff s).cues = s.cues := rfl
@[simp] theorem carrierOff_sound (s : State) : (carrierOff s).sound = s.sound := rfl
@[simp] theorem carrierOff_loader (s : State) : (carrierOff s).loader = s.loader := rfl
@[simp] theorem carrierOff_carrier (s : State) : (carrierOff s).link.carrier = false := rfl
@[simp] theorem carrierOff_queue (s : State) : (carrierOff s).link.queue = s.link.queue := rfl
@[simp] theorem carrierOff_access (s : State) : (carrierOff s).link.access = s.link.access := rfl
@[simp] theorem carrierOff_k (s : State) : (carrierOff s).link.k = s.link.k := rfl
@[simp] theorem carrierOff_ownAddress (s : State) : (carrierOff s).link.ownAddress = s.link.ownAddress := rfl

/-! ### validFrame -/

@[simp] theorem validFrame_pending (s : State) : (validFrame s).pending = s.pending := rfl
@[simp] theorem validFrame_now (s : State) : (validFrame s).now = s.now := rfl
@[simp] theorem validFrame_draws (s : State) : (validFrame s).draws = s.draws := rfl
@[simp] theorem validFrame_resetHeld (s : State) : (validFrame s).resetHeld = s.resetHeld := rfl
@[simp] theorem validFrame_driveFaultIn (s : State) : (validFrame s).driveFaultIn = s.driveFaultIn := rfl
@[simp] theorem validFrame_localStopIn (s : State) : (validFrame s).localStopIn = s.localStopIn := rfl
@[simp] theorem validFrame_settings (s : State) : (validFrame s).settings = s.settings := rfl
@[simp] theorem validFrame_peers (s : State) : (validFrame s).peers = s.peers := rfl
@[simp] theorem validFrame_route (s : State) : (validFrame s).route = s.route := rfl
@[simp] theorem validFrame_tracker (s : State) : (validFrame s).tracker = s.tracker := rfl
@[simp] theorem validFrame_motion (s : State) : (validFrame s).motion = s.motion := rfl
@[simp] theorem validFrame_claims (s : State) : (validFrame s).claims = s.claims := rfl
@[simp] theorem validFrame_restraint (s : State) : (validFrame s).restraint = s.restraint := rfl
@[simp] theorem validFrame_cond (s : State) : (validFrame s).cond = s.cond := rfl
@[simp] theorem validFrame_cues (s : State) : (validFrame s).cues = s.cues := rfl
@[simp] theorem validFrame_sound (s : State) : (validFrame s).sound = s.sound := rfl
@[simp] theorem validFrame_loader (s : State) : (validFrame s).loader = s.loader := rfl
@[simp] theorem validFrame_silence (s : State) : (validFrame s).link.silence = some s.now := rfl
@[simp] theorem validFrame_queue (s : State) : (validFrame s).link.queue = s.link.queue := rfl
@[simp] theorem validFrame_access (s : State) : (validFrame s).link.access = s.link.access := rfl
@[simp] theorem validFrame_k (s : State) : (validFrame s).link.k = s.link.k := rfl
@[simp] theorem validFrame_ownAddress (s : State) : (validFrame s).link.ownAddress = s.link.ownAddress := rfl

/-! ### startSending -/

@[simp] theorem startSending_pending (frame : List Byte) (s : State) : (startSending frame s).pending = s.pending := rfl
@[simp] theorem startSending_now (frame : List Byte) (s : State) : (startSending frame s).now = s.now := rfl
@[simp] theorem startSending_draws (frame : List Byte) (s : State) : (startSending frame s).draws = s.draws := rfl
@[simp] theorem startSending_resetHeld (frame : List Byte) (s : State) : (startSending frame s).resetHeld = s.resetHeld := rfl
@[simp] theorem startSending_driveFaultIn (frame : List Byte) (s : State) : (startSending frame s).driveFaultIn = s.driveFaultIn := rfl
@[simp] theorem startSending_localStopIn (frame : List Byte) (s : State) : (startSending frame s).localStopIn = s.localStopIn := rfl
@[simp] theorem startSending_settings (frame : List Byte) (s : State) : (startSending frame s).settings = s.settings := rfl
@[simp] theorem startSending_peers (frame : List Byte) (s : State) : (startSending frame s).peers = s.peers := rfl
@[simp] theorem startSending_route (frame : List Byte) (s : State) : (startSending frame s).route = s.route := rfl
@[simp] theorem startSending_tracker (frame : List Byte) (s : State) : (startSending frame s).tracker = s.tracker := rfl
@[simp] theorem startSending_motion (frame : List Byte) (s : State) : (startSending frame s).motion = s.motion := rfl
@[simp] theorem startSending_claims (frame : List Byte) (s : State) : (startSending frame s).claims = s.claims := rfl
@[simp] theorem startSending_restraint (frame : List Byte) (s : State) : (startSending frame s).restraint = s.restraint := rfl
@[simp] theorem startSending_cond (frame : List Byte) (s : State) : (startSending frame s).cond = s.cond := rfl
@[simp] theorem startSending_cues (frame : List Byte) (s : State) : (startSending frame s).cues = s.cues := rfl
@[simp] theorem startSending_sound (frame : List Byte) (s : State) : (startSending frame s).sound = s.sound := rfl
@[simp] theorem startSending_loader (frame : List Byte) (s : State) : (startSending frame s).loader = s.loader := rfl
@[simp] theorem startSending_access (frame : List Byte) (s : State) : (startSending frame s).link.access = .sending := rfl
@[simp] theorem startSending_onAir (frame : List Byte) (s : State) : (startSending frame s).link.onAir = some frame := rfl
@[simp] theorem startSending_queue (frame : List Byte) (s : State) : (startSending frame s).link.queue = s.link.queue := rfl

/-! ### withdrawUnlock -/

@[simp] theorem withdrawUnlock_pending (s : State) : (withdrawUnlock s).pending = s.pending := rfl
@[simp] theorem withdrawUnlock_now (s : State) : (withdrawUnlock s).now = s.now := rfl
@[simp] theorem withdrawUnlock_draws (s : State) : (withdrawUnlock s).draws = s.draws := rfl
@[simp] theorem withdrawUnlock_resetHeld (s : State) : (withdrawUnlock s).resetHeld = s.resetHeld := rfl
@[simp] theorem withdrawUnlock_driveFaultIn (s : State) : (withdrawUnlock s).driveFaultIn = s.driveFaultIn := rfl
@[simp] theorem withdrawUnlock_localStopIn (s : State) : (withdrawUnlock s).localStopIn = s.localStopIn := rfl
@[simp] theorem withdrawUnlock_settings (s : State) : (withdrawUnlock s).settings = s.settings := rfl
@[simp] theorem withdrawUnlock_link (s : State) : (withdrawUnlock s).link = s.link := rfl
@[simp] theorem withdrawUnlock_peers (s : State) : (withdrawUnlock s).peers = s.peers := rfl
@[simp] theorem withdrawUnlock_route (s : State) : (withdrawUnlock s).route = s.route := rfl
@[simp] theorem withdrawUnlock_tracker (s : State) : (withdrawUnlock s).tracker = s.tracker := rfl
@[simp] theorem withdrawUnlock_motion (s : State) : (withdrawUnlock s).motion = s.motion := rfl
@[simp] theorem withdrawUnlock_claims (s : State) : (withdrawUnlock s).claims = s.claims := rfl
@[simp] theorem withdrawUnlock_cond (s : State) : (withdrawUnlock s).cond = s.cond := rfl
@[simp] theorem withdrawUnlock_cues (s : State) : (withdrawUnlock s).cues = s.cues := rfl
@[simp] theorem withdrawUnlock_sound (s : State) : (withdrawUnlock s).sound = s.sound := rfl
@[simp] theorem withdrawUnlock_loader (s : State) : (withdrawUnlock s).loader = s.loader := rfl
@[simp] theorem withdrawUnlock_lines (s : State) : (withdrawUnlock s).restraint.lines = s.restraint.lines := rfl

/-! ### withdrawShow -/

@[simp] theorem withdrawShow_pending (s : State) : (withdrawShow s).pending = s.pending := rfl
@[simp] theorem withdrawShow_now (s : State) : (withdrawShow s).now = s.now := rfl
@[simp] theorem withdrawShow_draws (s : State) : (withdrawShow s).draws = s.draws := rfl
@[simp] theorem withdrawShow_resetHeld (s : State) : (withdrawShow s).resetHeld = s.resetHeld := rfl
@[simp] theorem withdrawShow_driveFaultIn (s : State) : (withdrawShow s).driveFaultIn = s.driveFaultIn := rfl
@[simp] theorem withdrawShow_localStopIn (s : State) : (withdrawShow s).localStopIn = s.localStopIn := rfl
@[simp] theorem withdrawShow_settings (s : State) : (withdrawShow s).settings = s.settings := rfl
@[simp] theorem withdrawShow_link (s : State) : (withdrawShow s).link = s.link := rfl
@[simp] theorem withdrawShow_peers (s : State) : (withdrawShow s).peers = s.peers := rfl
@[simp] theorem withdrawShow_route (s : State) : (withdrawShow s).route = s.route := rfl
@[simp] theorem withdrawShow_tracker (s : State) : (withdrawShow s).tracker = s.tracker := rfl
@[simp] theorem withdrawShow_motion (s : State) : (withdrawShow s).motion = s.motion := rfl
@[simp] theorem withdrawShow_claims (s : State) : (withdrawShow s).claims = s.claims := rfl
@[simp] theorem withdrawShow_restraint (s : State) : (withdrawShow s).restraint = s.restraint := rfl
@[simp] theorem withdrawShow_cond (s : State) : (withdrawShow s).cond = s.cond := rfl
@[simp] theorem withdrawShow_sound (s : State) : (withdrawShow s).sound = s.sound := rfl
@[simp] theorem withdrawShow_loader (s : State) : (withdrawShow s).loader = s.loader := rfl
@[simp] theorem withdrawShow_table (s : State) : (withdrawShow s).cues.table = s.cues.table := rfl

end Sys2Proof.Machine
end

