-- ==== Sys2Proof/Laws/Shared.lean ====
section
/-! SUPPORT. For each shared operation, once, all that it may do (`Aside`): what it leaves as it was, and that flags,
escalations, a filled first-fault record and frozen stay. A proof about a command cites these and never unfolds a shared
operation. -/
namespace Sys2Proof.Safety
open Sys2Proof.Machine

/-! ## The relation -/

theorem RecordGrows.refl (c : Condition) : RecordGrows c c := ⟨id, id, rfl, rfl, rfl, rfl, Nat.le_refl _⟩

theorem RecordGrows.trans {a b c : Condition} (h : RecordGrows a b) (g : RecordGrows b c) : RecordGrows a c :=
  ⟨g.latched ∘ h.latched, g.escalated ∘ h.escalated, g.level.trans h.level, g.announceFirst.trans h.announceFirst,
    g.count.trans h.count, g.clip.trans h.clip, Nat.le_trans g.remaining h.remaining⟩

theorem CounterGrows.refl (c : Counter) : CounterGrows c c := ⟨rfl, id, id⟩

theorem CounterGrows.trans {a b c : Counter} (h : CounterGrows a b) (g : CounterGrows b c) : CounterGrows a c :=
  ⟨by
    have hc := h.config
    have gc := g.config
    cases a
    cases b
    cases c
    simp_all, g.tripped ∘ h.tripped, g.armed ∘ h.armed⟩

theorem CondGrows.refl (u : ConditionUnit) : CondGrows u u :=
  ⟨rfl, fun _ c h => ⟨c, h, RecordGrows.refl c⟩, fun _ h => h, id, fun _ c h => ⟨c, h, CounterGrows.refl c⟩⟩

theorem CondGrows.trans {u v w : ConditionUnit} (h : CondGrows u v) (g : CondGrows v w) : CondGrows u w := by
  refine ⟨g.length.trans h.length, ?_, fun f e => g.firstFault f (h.firstFault f e), g.frozen ∘ h.frozen, ?_⟩
  · intro i c e
    obtain ⟨d, e1, r1⟩ := h.records i c e
    obtain ⟨d', e2, r2⟩ := g.records i d e1
    exact ⟨d', e2, r1.trans r2⟩
  · intro i c e
    obtain ⟨d, e1, r1⟩ := h.counters i c e
    obtain ⟨d', e2, r2⟩ := g.counters i d e1
    exact ⟨d', e2, r1.trans r2⟩

theorem CondGrows.of_eq {u v : ConditionUnit} (hr : v.records = u.records) (hf : v.firstFault = u.firstFault)
    (hz : v.frozen = u.frozen)
    (hc : ∀ (i : Nat) (c : Counter), u.counters[i]? = some c → ∃ d, v.counters[i]? = some d ∧ CounterGrows c d) :
    CondGrows u v :=
  ⟨by rw [hr], fun i c e => ⟨c, by rw [hr]; exact e, RecordGrows.refl c⟩, fun f e => by rw [hf]; exact e,
    fun e => by rw [hz]; exact e, hc⟩

/-- The counters stand. -/
theorem sameCounters {u v : ConditionUnit} (h : v.counters = u.counters) (i : Nat) (c : Counter)
    (e : u.counters[i]? = some c) : ∃ d, v.counters[i]? = some d ∧ CounterGrows c d :=
  ⟨c, by rw [h]; exact e, CounterGrows.refl c⟩

theorem SameOutside.refl (s : State) : SameOutside s s := by constructor <;> first | rfl | exact Or.inl rfl

theorem SameOutside.trans {a b c : State} (h : SameOutside a b) (g : SameOutside b c) : SameOutside a c := by
  constructor
  · exact g.pending.trans h.pending
  · exact g.now.trans h.now
  · exact g.resetHeld.trans h.resetHeld
  · exact g.driveFaultIn.trans h.driveFaultIn
  · exact g.localStopIn.trans h.localStopIn
  · exact g.settings.trans h.settings
  · exact g.link.trans h.link
  · exact g.peers.trans h.peers
  · exact g.route.trans h.route
  · exact g.tracker.trans h.tracker
  · exact g.claims.trans h.claims
  · exact g.loader.trans h.loader
  · exact g.running.trans h.running
  · exact g.n.trans h.n
  · exact g.fill.trans h.fill
  · exact g.lines.trans h.lines
  · rcases g.seats with e | e <;> rcases h.seats with d | d
    · exact Or.inl (e.trans d)
    · exact Or.inr (e.trans d)
    · exact Or.inr (by rw [e, d])
    · refine Or.inr ?_
      rw [e, d, List.map_map]
      rfl
  · exact g.dPrev.trans h.dPrev
  · exact g.immediate.trans h.immediate
  · exact g.atStation.trans h.atStation
  · exact g.record.trans h.record
  · exact g.clips.trans h.clips
  · exact g.out.trans h.out
  · rcases g.read with e | e | ⟨q, e, f⟩
    · rw [e]
      exact h.read
    · exact Or.inr (Or.inl e)
    · exact Or.inr (Or.inr ⟨q, e, by rw [f, h.now]⟩)

/-! ## The level -/

theorem le_foldl_weight (rs : List Condition) (m : Nat) : m ≤ rs.foldl (fun m c => max m c.weight) m := by
  induction rs generalizing m with
  | nil => exact Nat.le_refl m
  | cons c rs ih => exact Nat.le_trans (Nat.le_max_left m c.weight) (ih _)

theorem weight_le_foldl {rs : List Condition} {c : Condition} (h : c ∈ rs) (m : Nat) :
    c.weight ≤ rs.foldl (fun m c => max m c.weight) m := by
  induction rs generalizing m with
  | nil => exact absurd h (by simp)
  | cons d rs ih =>
    rcases List.mem_cons.mp h with e | h
    · subst e
      exact Nat.le_trans (Nat.le_max_right m c.weight) (le_foldl_weight rs _)
    · exact ih h _

theorem foldl_weight_le {rs : List Condition} {m n : Nat} (hm : m ≤ n) (h : ∀ c ∈ rs, c.weight ≤ n) :
    rs.foldl (fun m c => max m c.weight) m ≤ n := by
  induction rs generalizing m with
  | nil => exact hm
  | cons c rs ih =>
    exact ih (Nat.max_le.mpr ⟨hm, h c (by simp)⟩) fun d hd => h d (by simp [hd])

/-- R128: every condition's part is at most the level. -/
theorem weight_le_levelOf {rs : List Condition} {c : Condition} (h : c ∈ rs) : c.weight ≤ levelOf rs :=
  weight_le_foldl h 0

/-- R128: the level is at most any bound on every condition's part. -/
theorem levelOf_le {rs : List Condition} {n : Nat} (h : ∀ c ∈ rs, c.weight ≤ n) : levelOf rs ≤ n :=
  foldl_weight_le (Nat.zero_le n) h

theorem RecordGrows.weight {c d : Condition} (h : RecordGrows c d) : c.weight ≤ d.weight := by
  unfold Condition.weight
  rw [h.level, h.announceFirst]
  have hl := h.latched
  have he := h.escalated
  revert hl he
  cases c.latched <;> cases d.latched <;> cases c.escalated <;> cases d.escalated <;> cases c.announceFirst <;> simp

/-- The level never falls while the Condition Unit grows. -/
theorem CondGrows.level {u v : ConditionUnit} (h : CondGrows u v) : levelOf u.records ≤ levelOf v.records := by
  refine levelOf_le fun c hc => ?_
  obtain ⟨i, hi⟩ := List.getElem?_of_mem hc
  obtain ⟨d, hd, r⟩ := h.records i c hi
  exact Nat.le_trans r.weight (weight_le_levelOf (List.mem_of_getElem? hd))

/-! ## The whole relation -/

/-- The greatest number of further motion states that one event can enter from here, by Table 4.5 and R54 to R56, while
the level does not fall and nothing else changes. -/
def entriesLeft (s : State) : Nat :=
  match s.motion.state with
  | .start | .fault => 0
  | .estop => if 7 ≤ s.level then 0 else 6
  | .stopping => 1
  | .running | .holding => 6
  | .parked => if s.tracker.atBerth then (if s.readyMet then 4 else 1) else 3
  | .ready => if s.tracker.atBerth then 3 else 4
  | .stopped => if s.tracker.atBerth then 5 else 1

/-- `Aside`, the voices are changed as `VoiceCalm` says, and no more entries into motion states become possible than were possible before, whatever the claim
list; and the motion state still may stand at the level last handed on. -/
structure Calm (s t : State) : Prop extends Aside s t where
  voices : VoicesCalm s.sound.voices t.sound.voices
  entries : ∀ cs, t.motion.notices.length + entriesLeft { t with claims := cs }
    ≤ s.motion.notices.length + entriesLeft { s with claims := cs }
  stands : Stands s.cond.handed s.motion.state → Stands t.cond.handed t.motion.state

theorem SameSizes.refl (s : State) : SameSizes s s := ⟨rfl, rfl, id, rfl⟩

theorem SameSizes.trans {a b c : State} (h : SameSizes a b) (g : SameSizes b c) : SameSizes a c :=
  ⟨g.counters.trans h.counters, g.table.trans h.table, g.waiting ∘ h.waiting, g.voices.trans h.voices⟩

theorem Aside.refl (s : State) : Aside s s :=
  ⟨SameOutside.refl s, CondGrows.refl _, SameSizes.refl s, Iff.rfl, Iff.rfl, fun h _ => h, Or.inl, fun _ => rfl⟩

theorem Aside.trans {a b c : State} (h : Aside a b) (g : Aside b c) : Aside a c :=
  ⟨h.outside.trans g.outside, h.grows.trans g.grows, h.sizes.trans g.sizes, g.start.trans h.start, g.fault.trans h.fault,
    fun e l => g.estop (h.estop e l) (Nat.le_trans l h.grows.level),
    fun e => (h.stopping e).elim g.stopping fun k => Or.inr ⟨g.estop k.1 k.2, Nat.le_trans k.2 g.grows.level⟩,
    fun e => (h.moving (by rw [g.moving e]; exact e)).trans (g.moving e)⟩


theorem Calm.refl (s : State) : Calm s s := ⟨Aside.refl s, VoicesCalm.refl _, fun _ => Nat.le_refl _, id⟩

theorem Calm.trans {a b c : State} (h : Calm a b) (g : Calm b c) : Calm a c :=
  ⟨h.toAside.trans g.toAside, h.voices.trans g.voices, fun cs => Nat.le_trans (g.entries cs) (h.entries cs), g.stands ∘ h.stands⟩

/-- The level never falls. -/
theorem Aside.level {s t : State} (h : Aside s t) : s.level ≤ t.level := h.grows.level

theorem Calm.foldl {α : Type} (f : State → α → State) (h : ∀ a x, Calm a (f a x)) (xs : List α) (s : State) :
    Calm s (xs.foldl f s) := by
  induction xs generalizing s with
  | nil => exact Calm.refl s
  | cons x xs ih => exact (h s x).trans (ih (f s x))

/-- A change of the sound engine by the engine's operations. -/
theorem Calm.sound (s : State) (e : SoundEngine) (h : EngineCalm s.now s.sound e) : Calm s { s with sound := e } :=
  ⟨⟨by constructor <;> first | rfl | exact h.clips | exact h.out | exact h.read | exact Or.inl rfl, CondGrows.refl _,
    ⟨rfl, rfl, id, h.length⟩, Iff.rfl, Iff.rfl, fun e _ => e, Or.inl, fun _ => rfl⟩, h.voices, fun _ => Nat.le_refl _, id⟩

/-- While the Condition Unit grows, no further entry becomes possible. -/
theorem entriesLeft_cond (s : State) (u : ConditionUnit) (h : CondGrows s.cond u) :
    entriesLeft { s with cond := u } ≤ entriesLeft s := by
  have hl : s.level ≤ State.level { s with cond := u } := h.level
  have hr : State.readyMet { s with cond := u } = true → s.readyMet = true := by
    unfold State.readyMet
    simp only [Bool.and_eq_true, decide_eq_true_eq]
    exact fun ⟨⟨⟨⟨a, l⟩, b⟩, c⟩, d⟩ => ⟨⟨⟨⟨a, Nat.le_trans hl l⟩, b⟩, c⟩, d⟩
  unfold entriesLeft
  dsimp only
  split <;> try exact Nat.le_refl _
  · split <;> split <;> omega
  · split
    · split <;> split <;> simp_all
    · exact Nat.le_refl _

/-- A change of the Condition Unit that only grows. -/
theorem Calm.cond (s : State) (u : ConditionUnit) (h : CondGrows s.cond u)
    (hc : u.counters.length = s.cond.counters.length) (hh : u.handed = s.cond.handed) : Calm s { s with cond := u } :=
  ⟨⟨by constructor <;> first | rfl | exact Or.inl rfl, h, ⟨hc, rfl, id, rfl⟩, Iff.rfl, Iff.rfl, fun e _ => e, Or.inl, fun _ => rfl⟩,
    VoicesCalm.refl _, fun cs => Nat.add_le_add_left (entriesLeft_cond { s with claims := cs } u h) _, fun k => by rw [hh]; exact k⟩

/-- A change of the cues. -/
theorem Calm.cues (s : State) (q : CueSequencer) (ht : q.table.length = s.cues.table.length)
    (hw : s.cues.waiting.length ≤ 16 → q.waiting.length ≤ 16) : Calm s { s with cues := q } :=
  ⟨⟨by constructor <;> first | rfl | exact Or.inl rfl, CondGrows.refl _, ⟨rfl, ht, hw, rfl⟩, Iff.rfl, Iff.rfl,
    fun e _ => e, Or.inl, fun _ => rfl⟩, VoicesCalm.refl _, fun _ => Nat.le_refl _, id⟩

/-- A change of the free draws. -/
theorem Calm.draws (s : State) (n : Nat) : Calm s { s with draws := n } :=
  ⟨⟨by constructor <;> first | rfl | exact Or.inl rfl, CondGrows.refl _, ⟨rfl, rfl, id, rfl⟩, Iff.rfl, Iff.rfl,
    fun e _ => e, Or.inl, fun _ => rfl⟩, VoicesCalm.refl _, fun _ => Nat.le_refl _, id⟩

/-- A change of the motion state's announcement flags, or fewer notices. -/
theorem Calm.motion (s : State) (m : Motion) (h0 : m.state = s.motion.state) (h1 : m.dPrev = s.motion.dPrev)
    (h2 : m.immediate = s.motion.immediate) (h3 : m.atStation = s.motion.atStation) (h4 : m.record = s.motion.record)
    (h5 : m.notices.length ≤ s.motion.notices.length) : Calm s { s with motion := m } :=
  ⟨⟨by constructor <;> first | rfl | exact Or.inl rfl | assumption, CondGrows.refl _, ⟨rfl, rfl, id, rfl⟩,
    by rw [← h0], by rw [← h0], fun e _ => h0.trans e,
    fun e => Or.inl (h0.trans e), fun _ => h0.symm⟩, VoicesCalm.refl _, fun cs => by
      refine Nat.add_le_add h5 (Nat.le_of_eq ?_)
      obtain ⟨m0, _, m2, m3, _, _, _, _⟩ := m
      dsimp only at h0 h2 h3
      subst h0 h2 h3
      rfl, fun k => by rw [h0]; exact k⟩

theorem arbitrate_calm (s : State) : Calm s (arbitrate s) := by
  have h := arbitrate_engine s
  obtain ⟨r, e⟩ := arbitrate_eq s
  rw [e] at h ⊢
  exact Calm.sound s _ h

/-! ## Motion state, level, records -/

/-- An entry of the kind that the shared operations make. -/
theorem enter_aside (st : MotionState) (s : State) (h1 : st ≠ .start ∧ st ≠ .fault ∧ st ≠ .running ∧ st ≠ .holding)
    (h3 : s.motion.state ≠ .start) (h4 : s.motion.state ≠ .fault) (h5 : s.motion.state = .estop → s.level ≤ 6)
    (h6 : s.motion.state = .stopping → st = .estop ∧ 7 ≤ s.level) : Aside s (enter st s) :=
  ⟨by constructor <;> first | rfl | exact Or.inl rfl, CondGrows.refl _, ⟨rfl, rfl, id, rfl⟩, by simp [h1, h3],
    by simp [h1, h4], fun e l => absurd (h5 e) (by omega), fun e => Or.inr (h6 e),
    fun e => e.elim (fun k => absurd k h1.2.2.1) fun k => absurd k h1.2.2.2⟩

theorem enter_measure (st : MotionState) {s : State} (h : entriesLeft (enter st s) < entriesLeft s) :
    (enter st s).motion.notices.length + entriesLeft (enter st s) ≤ s.motion.notices.length + entriesLeft s := by
  simp only [enter, List.length_append, List.length_singleton] at h ⊢
  omega

/-- What the READY requirements say of the level and of the berth. -/
theorem readyMet_facts {s : State} (h : s.readyMet = true) : s.level ≤ 2 ∧ s.tracker.atBerth = true := by
  simp only [State.readyMet, Bool.and_eq_true, decide_eq_true_eq] at h
  exact ⟨h.1.1.1.2, h.1.1.1.1.1.1⟩

theorem enter_entriesLeft (st : MotionState) (s : State) : entriesLeft (enter st s) =
    match st with
    | .start | .fault => 0
    | .estop => if 7 ≤ s.level then 0 else 6
    | .stopping => 1
    | .running | .holding => 6
    | .parked => if s.tracker.atBerth then (if s.readyMet then 4 else 1) else 3
    | .ready => if s.tracker.atBerth then 3 else 4
    | .stopped => if s.tracker.atBerth then 5 else 1 := rfl

theorem applyLevel_aside (s : State) : Aside s (applyLevel s) ∧ ∀ cs,
    (applyLevel s).motion.notices.length + entriesLeft { applyLevel s with claims := cs }
      ≤ s.motion.notices.length + entriesLeft { s with claims := cs } := by
  have hr := fun cs => @readyMet_facts { s with claims := cs }
  unfold applyLevel
  dsimp only
  split <;> rename_i h <;> (repeat' split) <;>
    first
      | exact ⟨Aside.refl s, fun _ => Nat.le_refl _⟩
      | (refine ⟨enter_aside _ s (by simp) (by simp [h]) (by simp [h]) (by simp [h]; try omega)
           (by simp [h]; try omega), fun cs => ?_⟩
         refine enter_measure _ (s := { s with claims := cs }) ?_
         have hl : State.level { s with claims := cs } = s.level := rfl
         rw [enter_entriesLeft, entriesLeft, hl]
         dsimp only
         rw [h]
         have hr' := hr cs
         cases hb : s.tracker.atBerth <;> cases hm : State.readyMet { s with claims := cs } <;> simp_all <;>
           (repeat' split) <;> omega)

theorem applyLevel_cond (s : State) : (applyLevel s).cond = s.cond := by
  unfold applyLevel
  dsimp only
  split <;> (repeat' split) <;> rfl

theorem applyLevel_sound (s : State) : (applyLevel s).sound = s.sound := by
  unfold applyLevel
  dsimp only
  split <;> (repeat' split) <;> rfl

/-- R58, R59: after the level has been applied the motion state may stand at it. -/
theorem applyLevel_stands (s : State) : Stands s.level (applyLevel s).motion.state := by
  unfold applyLevel
  dsimp only
  split <;> rename_i h <;> (repeat' split) <;> simp_all [Stands, enter] <;> omega

/-! ## The operations by a hand-over that is `Calm` -/

theorem handLevelBy_calm {h : State → State} (hh : ∀ s, Calm s (h s)) (s : State) : Calm s (handLevelBy h s) := by
  unfold handLevelBy
  split
  · exact Calm.refl s
  · refine Calm.trans ?_ (hh _)
    have hc : CondGrows s.cond { s.cond with handed := s.level } := CondGrows.of_eq rfl rfl rfl (sameCounters rfl)
    have ha := applyLevel_aside { s with cond := { s.cond with handed := s.level } }
    have h1 : Aside s { s with cond := { s.cond with handed := s.level } } :=
      ⟨by constructor <;> first | rfl | exact Or.inl rfl, hc, ⟨rfl, rfl, id, rfl⟩, Iff.rfl, Iff.rfl, fun e _ => e, Or.inl, fun _ => rfl⟩
    refine ⟨h1.trans ha.1, by rw [applyLevel_sound]; exact VoicesCalm.refl _, fun cs => Nat.le_trans (ha.2 cs) (Nat.add_le_add_left
        (entriesLeft_cond { s with claims := cs } _ hc) _), fun _ => ?_⟩
    rw [applyLevel_cond]
    exact applyLevel_stands { s with cond := { s.cond with handed := s.level } }

theorem levelStepBy_calm {h : State → State} (hh : ∀ s, Calm s (h s)) (hold : Bool) (s : State) :
    Calm s (levelStepBy h hold s) := by
  unfold levelStepBy
  split
  · exact Calm.refl s
  · exact handLevelBy_calm hh s

theorem onRecord_calm (id : Nat) (f : Condition → Condition) (hf : ∀ c, RecordGrows c (f c)) (s : State) :
    Calm s (onRecord id f s) := by
  refine Calm.cond s _ ⟨?_, ?_, fun _ h => h, fun h => h, sameCounters rfl⟩ rfl rfl
  · dsimp only; split
    · rfl
    · simp [updateAt]
  · intro i c e
    dsimp only
    split
    · exact ⟨c, e, RecordGrows.refl c⟩
    · rw [updateAt, List.getElem?_modify, e]
      split
      · exact ⟨f c, rfl, hf c⟩
      · exact ⟨c, rfl, RecordGrows.refl c⟩

theorem drop_grows (c : Condition) : RecordGrows c c.drop := by
  unfold Condition.drop
  split
  · exact RecordGrows.refl c
  · exact ⟨fun h => h, fun h => by simp [h], rfl, rfl, rfl, rfl, Nat.sub_le _ _⟩

theorem voiceEnd_grows (c : Condition) : RecordGrows c c.voiceEnd := by
  unfold Condition.voiceEnd
  split
  · exact (drop_grows c).trans ⟨fun h => h, fun h => h, rfl, rfl, rfl, rfl, Nat.le_refl _⟩
  · exact ⟨fun h => h, fun h => h, rfl, rfl, rfl, rfl, Nat.le_refl _⟩
  · exact RecordGrows.refl c

theorem endWithoutBy_calm {h : State → State} (hh : ∀ s, Calm s (h s)) (hold : Bool) (tag : VoiceTag) (s : State) :
    Calm s (endWithoutBy h hold tag s) := by
  unfold endWithoutBy
  split
  · exact Calm.refl s
  · exact (onRecord_calm _ _ voiceEnd_grows s).trans (levelStepBy_calm hh _ _)
  · exact Calm.motion s _ rfl rfl rfl rfl rfl (Nat.le_refl _)
  · exact Calm.motion s _ rfl rfl rfl rfl rfl (Nat.le_refl _)

theorem requestVoiceBy_calm {h : State → State} (hh : ∀ s, Calm s (h s)) (hold : Bool) (req : StartRequest) (s : State) :
    Calm s (requestVoiceBy h hold req s).1 := by
  unfold requestVoiceBy
  dsimp only
  have h0 := startVoice_engine s req
  have h1 : Calm s (arbitrate { s with sound := (startVoice s req).engine }) :=
    (Calm.sound s _ h0).trans (arbitrate_calm _)
  split
  · exact h1
  · exact h1.trans (endWithoutBy_calm hh _ _ _)

/-! ## Occurrences and tallies -/

theorem fillFirstFault_calm (id : Nat) (s : State) : Calm s (fillFirstFault id s) := by
  unfold fillFirstFault
  split
  · exact Calm.refl s
  · split
    · rename_i h
      refine Calm.cond s _ ⟨rfl, fun i c e => ⟨c, e, RecordGrows.refl c⟩, fun f e => ?_, fun h => h, sameCounters rfl⟩ rfl rfl
      rw [Bool.and_eq_true, e] at h
      exact absurd h.2 (by simp)
    · exact Calm.refl s

theorem applyTrips_grows (trips : List Nat) (u : ConditionUnit) : CondGrows u (applyTrips trips u) :=
  ⟨rfl, fun _ c e => ⟨c, e, RecordGrows.refl c⟩, fun _ e => e, fun e => by simp [applyTrips, e], fun i c e => by
    refine ⟨if trips.contains 1 && c.chained then { c with armed := true } else c, by simp [applyTrips, e], ?_⟩
    split
    · exact ⟨rfl, id, fun _ => rfl⟩
    · exact CounterGrows.refl c⟩

/-- R136: a counter that takes an arrival keeps its configuration, and was not tripped. -/
theorem add_grows {c : Counter} (h : c.tripped = false) (amount : Nat) : CounterGrows c (c.add amount) :=
  ⟨rfl, fun e => by rw [h] at e; exact absurd e (by simp), id⟩

theorem takes_untripped {c : Counter} {event : TallyEvent} {s : State} (h : c.takes event s = true) :
    c.tripped = false := by
  simp only [Counter.takes, Bool.and_eq_true, Bool.not_eq_true'] at h
  exact h.1.1.1.2

theorem tallyCore_calm (offered : Nat → Bool) (event : TallyEvent) (amount : Nat) (s : State) :
    Calm s (tallyCore offered event amount s).1 := by
  refine Calm.cond s _ (CondGrows.trans ?_ (applyTrips_grows _ _)) (by simp [applyTrips]) rfl
  refine CondGrows.of_eq rfl rfl rfl fun i c e => ?_
  refine ⟨if offered (i + 1) && c.takes event s then c.add amount else c, by simp [List.getElem?_zipIdx, e], ?_⟩
  split
  · rename_i h
    rw [Bool.and_eq_true] at h
    exact add_grows (takes_untripped h.2) amount
  · exact CounterGrows.refl c

theorem announceBy_calm {h : State → State} (hh : ∀ s, Calm s (h s)) (hold : Bool) (id : Nat) (s : State) :
    Calm s (announceBy h hold id s).1 := by
  unfold announceBy
  split
  · exact Calm.refl s
  · split
    · exact Calm.refl s
    · split
      · exact onRecord_calm _ _ drop_grows s
      · dsimp only
        split
        · refine Calm.trans (requestVoiceBy_calm hh hold _ s)
            (onRecord_calm id (fun q => { q with announcement := .counting }) ?_ _)
          exact fun c => ⟨fun h => h, fun h => h, rfl, rfl, rfl, rfl, Nat.le_refl _⟩
        · exact (requestVoiceBy_calm hh _ _ _).trans (onRecord_calm _ _ drop_grows _)

theorem latchFlag_grows (c : Condition) : RecordGrows c { c with latched := true } :=
  ⟨fun _ => rfl, fun h => h, rfl, rfl, rfl, rfl, Nat.le_refl _⟩

theorem occurrenceBy_calm {h : State → State} (hh : ∀ s, Calm s (h s)) (hold : Bool) (id : Nat) (s : State) :
    Calm s (occurrenceBy h hold id s).1 :=
  ((onRecord_calm id _ latchFlag_grows s).trans (fillFirstFault_calm id _)).trans (announceBy_calm hh hold id _)

theorem latchWithBy_calm {h : State → State} (hh : ∀ s, Calm s (h s)) (hold : Bool) (fuel id : Nat) (s : State) :
    Calm s (latchWithBy h hold fuel id s) := by
  induction fuel generalizing id s with
  | zero =>
    rw [latchWithBy]
    refine ((occurrenceBy_calm hh hold id s).trans ?_).trans (levelStepBy_calm hh _ _)
    split
    · exact tallyCore_calm _ _ _ _
    · exact Calm.refl _
  | succ n ih =>
    rw [latchWithBy]
    refine ((occurrenceBy_calm hh hold id s).trans ?_).trans (levelStepBy_calm hh _ _)
    split
    · exact (tallyCore_calm _ _ _ _).trans (Calm.foldl _ (fun a k => ih (19 + k) a) _ _)
    · exact Calm.refl _

theorem latchBy_calm {h : State → State} (hh : ∀ s, Calm s (h s)) (id : Nat) (s : State) : Calm s (latchBy h id s) :=
  latchWithBy_calm hh _ _ _ _

theorem latchTripsBy_calm {h : State → State} (hh : ∀ s, Calm s (h s)) (r : State × List Nat) :
    Calm r.1 (latchTripsBy h r) :=
  Calm.foldl _ (fun a k => latchBy_calm hh (19 + k) a) _ _

theorem tallyBy_calm {h : State → State} (hh : ∀ s, Calm s (h s)) (event : TallyEvent) (amount : Nat) (s : State) :
    Calm s (tallyBy h event amount s) :=
  (tallyCore_calm _ _ _ _).trans (latchTripsBy_calm hh _)

theorem stealEventBy_calm {h : State → State} (hh : ∀ s, Calm s (h s)) (r : StartResult) (s : State) :
    Calm s (stealEventBy h r s) := by
  unfold stealEventBy
  split
  · exact tallyBy_calm hh _ _ _
  · exact Calm.refl s

/-! ## Cue occurrences -/

theorem insertByKey_length {α : Type} (key : α → Nat) (x : α) (xs : List α) :
    (insertByKey key x xs).length = xs.length + 1 := by
  induction xs with
  | nil => rfl
  | cons y ys ih =>
    rw [insertByKey]
    split
    · rfl
    · simp [ih]

theorem fireCue_calm (id : Nat) (c : CueEntry) (s : State) (h : s.cues.waiting.length < 16) :
    Calm s (fireCue id c s) :=
  Calm.cues s _ (by simp [updateAt]) fun _ => by simp only [insertByKey_length]; omega

theorem dropCueBy_calm {h : State → State} (hh : ∀ s, Calm s (h s)) (s : State) : Calm s (dropCueBy h s) :=
  (tallyBy_calm hh _ _ _).trans (latchBy_calm hh _ _)

theorem cueOccurBy_calm {h : State → State} (hh : ∀ s, Calm s (h s)) (s : State) (id : Nat) : Calm s (cueOccurBy h s id) := by
  unfold cueOccurBy
  split
  · exact Calm.refl s
  · split
    · exact Calm.refl s
    · split
      · exact dropCueBy_calm hh s
      · rename_i hw
        exact fireCue_calm _ _ s (by simpa [Config.waitingCap] using hw)

theorem occurWhereBy_calm {h : State → State} (hh : ∀ s, Calm s (h s)) (p : CueTrigger → Bool) (s : State) :
    Calm s (occurWhereBy h p s) :=
  Calm.foldl _ (cueOccurBy_calm hh) _ _

/-! ## Notices and settling -/

theorem summaryOf_bare (seats : List Seat) : summaryOf (seats.map bareSeat) = summaryOf seats := by
  have h1 : ∀ p : SeatState → Bool, (seats.map bareSeat).filter (fun q => p q.state)
      = (seats.filter fun q => p q.state).map bareSeat := fun p => by
    rw [List.filter_map]
    rfl
  unfold summaryOf
  dsimp only
  rw [h1 (fun x => x != .unused)]
  simp only [List.any_map, List.all_map]
  rfl

theorem withdrawUnlock_calm (s : State) : Calm s (withdrawUnlock s) := by
  refine ⟨⟨?_, CondGrows.refl _, ⟨rfl, rfl, id, rfl⟩, Iff.rfl, Iff.rfl, fun e _ => e, Or.inl, fun _ => rfl⟩, VoicesCalm.refl _, fun cs => ?_, id⟩
  · constructor <;> first | rfl | exact Or.inl rfl | exact Or.inr rfl
  · refine Nat.add_le_add_left (Nat.le_of_eq ?_) _
    have h : (withdrawUnlock s).summary = s.summary := summaryOf_bare s.restraint.seats
    have hr : State.readyMet { withdrawUnlock s with claims := cs } = State.readyMet { s with claims := cs } := by
      have h2 : State.summary { withdrawUnlock s with claims := cs } = State.summary { s with claims := cs } := h
      unfold State.readyMet
      rw [h2]
      rfl
    unfold entriesLeft
    rw [hr]
    rfl

theorem endDuration_calm (key : DurationKey) (s : State) : Calm s (endDuration key s) :=
  Calm.cond s _ (CondGrows.of_eq rfl rfl rfl (sameCounters rfl)) rfl rfl

theorem startDuration_calm (key : DurationKey) (s : State) : Calm s (startDuration key s) :=
  (endDuration_calm key s).trans (Calm.cond _ _ (CondGrows.of_eq rfl rfl rfl (sameCounters rfl)) rfl rfl)

theorem stopAnnouncementBy_calm {h : State → State} (hh : ∀ s, Calm s (h s)) (s : State) :
    Calm s (stopAnnouncementBy h s) := by
  unfold stopAnnouncementBy
  split
  · exact Calm.refl s
  · rename_i clip _
    split
    · exact Calm.refl s
    · have hr := requestVoiceBy_calm hh false
        { clip := clip, priority := 3, gains := [128, 128, 128, 128], lock := none, tag := .stopAnnouncement } s
      revert hr
      generalize requestVoiceBy h false
        { clip := clip, priority := 3, gains := [128, 128, 128, 128], lock := none, tag := .stopAnnouncement } s = r
      intro hr
      refine Calm.trans ?_ (stealEventBy_calm hh _ _)
      exact Calm.trans hr (Calm.motion _ _ rfl rfl rfl rfl rfl (Nat.le_refl _))

theorem fadeShowBy_calm {h : State → State} (hh : ∀ s, Calm s (h s)) (s : State) : Calm s (fadeShowBy h s) := by
  exact ((Calm.sound s _ (stopVoices_engine s.now (fun w => w.priority < 3) s.sound)).trans (arbitrate_calm _)).trans
    (Calm.foldl _ (fun a t => endWithoutBy_calm hh false t a) _ _)

theorem withdrawShow_calm (s : State) : Calm s (withdrawShow s) :=
  Calm.cues s _ rfl fun h => Nat.le_trans (List.length_filter_le _ _) h

theorem deliverBy_calm {h : State → State} (hh : ∀ s, Calm s (h s)) (st : MotionState) (s : State) :
    Calm s (deliverBy h st s) := by
  unfold deliverBy
  dsimp only
  refine Calm.trans ?_ (occurWhereBy_calm hh _ _)
  refine Calm.trans (b := if st = .parked then s else withdrawUnlock s) ?_ ?_
  · split
    · exact Calm.refl s
    · exact withdrawUnlock_calm s
  · generalize (if st = .parked then s else withdrawUnlock s) = a
    refine Calm.trans (b := if st = .holding then startDuration .holdLong a else endDuration .holdLong a) ?_ ?_
    · split
      · exact startDuration_calm _ _
      · exact endDuration_calm _ _
    · generalize (if st = .holding then startDuration .holdLong a else endDuration .holdLong a) = b
      split
      · exact ((fadeShowBy_calm hh _).trans (stopAnnouncementBy_calm hh _)).trans (withdrawShow_calm _)
      · exact Calm.refl _

theorem dropNotices_calm (s : State) : Calm s (dropNotices s) :=
  Calm.motion s _ rfl rfl rfl rfl rfl (Nat.zero_le _)

/-- An entry that waits is taken from the front. -/
theorem takeNotice_calm {s : State} {st : MotionState} {rest : List MotionState} (e : s.motion.notices = st :: rest) :
    Calm s { s with motion := { s.motion with notices := rest } } :=
  Calm.motion s _ rfl rfl rfl rfl rfl (by rw [e]; simp)

theorem waits_calm (s : State) : Calm s (waits s) := Calm.refl s

theorem handNotices_calm (fuel : Nat) : ∀ s, Calm s (handNotices fuel s) := by
  induction fuel with
  | zero => exact dropNotices_calm
  | succ n ih =>
    intro s
    rw [handNotices]
    split
    · exact Calm.refl s
    · rename_i st rest e
      exact ((takeNotice_calm e).trans (deliverBy_calm waits_calm st _)).trans (ih _)

/-- R78, R150: the first entry that waits is handed on whole before the next. -/
theorem handNotices_cons (n : Nat) {s : State} {st : MotionState} {rest : List MotionState}
    (e : s.motion.notices = st :: rest) :
    handNotices (n + 1) s = handNotices n (deliverBy waits st { s with motion := { s.motion with notices := rest } }) := by
  rw [handNotices, e]

/-- R78: after the handing on no entry waits. -/
theorem handNotices_empty (fuel : Nat) : ∀ s, (handNotices fuel s).motion.notices = [] := by
  induction fuel with
  | zero => exact fun _ => rfl
  | succ n ih =>
    intro s
    rw [handNotices]
    split
    · assumption
    · exact ih _

theorem atOnce_calm (s : State) : Calm s (atOnce s) := handNotices_calm 64 s

@[simp] theorem atOnce_notices (s : State) : (atOnce s).motion.notices = [] := handNotices_empty 64 s

/-- With no entry waiting there is nothing to hand on. -/
theorem atOnce_quiet {s : State} (h : s.motion.notices = []) : atOnce s = s := by
  rw [atOnce, handNotices, h]

/-! ## The operations as commands use them -/

theorem handLevel_calm (s : State) : Calm s (handLevel s) := handLevelBy_calm atOnce_calm s
theorem endWithout_calm (tag : VoiceTag) (s : State) : Calm s (endWithout tag s) := endWithoutBy_calm atOnce_calm _ _ _
theorem requestVoice_calm (req : StartRequest) (s : State) : Calm s (requestVoice req s).1 :=
  requestVoiceBy_calm atOnce_calm _ _ _
theorem latch_calm (id : Nat) (s : State) : Calm s (latch id s) := latchBy_calm atOnce_calm _ _
theorem latchHeld_calm (id : Nat) (s : State) : Calm s (latchHeld id s) := latchWithBy_calm atOnce_calm _ _ _ _
theorem latchTrips_calm (r : State × List Nat) : Calm r.1 (latchTrips r) := latchTripsBy_calm atOnce_calm r
theorem tally_calm (event : TallyEvent) (amount : Nat) (s : State) : Calm s (tally event amount s) :=
  tallyBy_calm atOnce_calm _ _ _
theorem stealEvent_calm (r : StartResult) (s : State) : Calm s (stealEvent r s) := stealEventBy_calm atOnce_calm _ _
theorem dropCue_calm (s : State) : Calm s (dropCue s) := dropCueBy_calm atOnce_calm s
theorem cueOccur_calm (s : State) (id : Nat) : Calm s (cueOccur s id) := cueOccurBy_calm atOnce_calm s id
theorem occurWhere_calm (p : CueTrigger → Bool) (s : State) : Calm s (occurWhere p s) :=
  occurWhereBy_calm atOnce_calm _ _
theorem cueDone_calm (id : Nat) (s : State) : Calm s (cueDone id s) := occurWhere_calm _ _
theorem zoneLeave_calm (s : State) (zone : Nat) : Calm s (zoneLeave s zone) := occurWhere_calm _ _

theorem reportAll_calm (rs : List Report) (s : State) : Calm s (reportAll rs s) :=
  Calm.foldl _ (fun a r => by cases r <;> dsimp only <;> first | exact tally_calm _ _ _ | exact latch_calm _ _) _ _

theorem endReport_calm (tag : VoiceTag) (completed : Bool) (s : State) : Calm s (endReport tag completed s) := by
  unfold endReport
  split
  · split
    · exact cueDone_calm _ _
    · exact Calm.refl s
  all_goals exact endWithout_calm _ _

/-! ## Standing judgements and settling -/

/-- What a standing judgement does: nothing, or one entry, and it is `Aside`; no more entries become possible. -/
theorem judgeStanding_cases (s : State) : Aside s (judgeStanding s)
    ∧ (judgeStanding s).motion.notices.length + entriesLeft (judgeStanding s) ≤ s.motion.notices.length + entriesLeft s
    ∧ (judgeStanding s = s ∨ ∃ st, (judgeStanding s).motion.notices = s.motion.notices ++ [st]) := by
  have hr := @readyMet_facts s
  unfold judgeStanding
  split <;> rename_i h <;> (repeat' split) <;>
    first
      | exact ⟨Aside.refl s, Nat.le_refl _, Or.inl rfl⟩
      | (refine ⟨enter_aside _ s (by simp) (by simp [h]) (by simp [h]) (by simp [h]) (by simp [h]), enter_measure _ ?_,
           Or.inr ⟨_, rfl⟩⟩
         rw [enter_entriesLeft, entriesLeft, h]
         cases hb : s.tracker.atBerth <;> cases hm : s.readyMet <;> simp_all)

/-- R55, R56: what the judgement of at berth does: nothing, or one entry, handed on. -/
theorem judgeBerth_calm (s : State) : Calm s (judgeBerth s) := by
  have one : ∀ st, Aside s (enter st s) → (∀ cs, entriesLeft (enter st { s with claims := cs }) < entriesLeft { s with claims := cs }) →
      (Stands s.cond.handed s.motion.state → Stands s.cond.handed st) → Calm s (atOnce (enter st s)) :=
    fun st ha hm hs => Calm.trans ⟨ha, VoicesCalm.refl _, fun cs => enter_measure st (hm cs), hs⟩ (atOnce_calm _)
  unfold judgeBerth
  split <;> rename_i h <;> (repeat' split) <;>
    first
      | exact Calm.refl s
      | (refine one _ (enter_aside _ s (by simp) (by simp [h]) (by simp [h]) (by simp [h]) (by simp [h])) (fun cs => ?_) ?_
         · rw [enter_entriesLeft, entriesLeft, h]
           cases hb : s.tracker.atBerth <;> cases hm : State.readyMet { s with claims := cs } <;> simp_all
         · rw [h]
           simp only [Stands]
           omega)

theorem settleLoop_aside (fuel : Nat) (s : State) : Aside s (settleLoop fuel s) := by
  induction fuel generalizing s with
  | zero => exact (dropNotices_calm s).toAside
  | succ n ih =>
    rw [settleLoop]
    have hj := (judgeStanding_cases s).1
    split
    · exact hj
    · exact (hj.trans (atOnce_calm _).toAside).trans (ih _)

theorem settle_aside (s : State) : Aside s (settle s) := (settleLoop_aside _ s).trans (arbitrate_calm _).toAside

theorem Calm.measure {s t : State} (h : Calm s t) :
    t.motion.notices.length + entriesLeft t ≤ s.motion.notices.length + entriesLeft s := by
  have h2 := h.entries t.claims
  have h3 : { s with claims := t.claims } = s := by rw [h.outside.claims]
  rwa [h3] at h2

/-- The handing on of an entry that waits leaves fewer to come. -/
theorem atOnce_measure {s : State} {st : MotionState} {rest : List MotionState} (e : s.motion.notices = st :: rest) :
    (atOnce s).motion.notices.length + entriesLeft (atOnce s) < s.motion.notices.length + entriesLeft s := by
  obtain ⟨p, h, h2, h3⟩ : ∃ p : State, atOnce s = handNotices 63 (deliverBy waits st p)
      ∧ entriesLeft p = entriesLeft s ∧ p.motion.notices = rest :=
    ⟨{ s with motion := { s.motion with notices := rest } }, handNotices_cons 63 e, rfl, rfl⟩
  have hm := ((deliverBy_calm waits_calm st p).trans (handNotices_calm 63 _)).measure
  rw [h, e, List.length_cons]
  rw [h2, h3] at hm
  omega

theorem settleLoop_quiet (fuel : Nat) (s : State) (h : s.motion.notices.length + entriesLeft s < fuel) :
    (settleLoop fuel s).motion.notices = [] ∧ judgeStanding (settleLoop fuel s) = settleLoop fuel s := by
  induction fuel generalizing s with
  | zero => omega
  | succ n ih =>
    rw [settleLoop]
    obtain ⟨_, hm, hc⟩ := judgeStanding_cases s
    split
    · rename_i e
      refine ⟨e, ?_⟩
      rcases hc with hc | ⟨st, hc⟩
      · rw [hc, hc]
      · rw [e] at hc
        exact absurd hc (by simp)
    · rename_i st rest e
      refine ih _ ?_
      have := atOnce_measure e
      omega

/-- A standing judgement does not look at the read in progress. -/
theorem judgeStanding_read (s : State) (r : Option Read) :
    judgeStanding { s with sound := { s.sound with read := r } }
      = { judgeStanding s with sound := { s.sound with read := r } } := by
  unfold judgeStanding
  have hr : State.readyMet { s with sound := { s.sound with read := r } } = s.readyMet := rfl
  rw [hr]
  dsimp only
  split <;> (repeat' split) <;> rfl

/-- R167: once the arbiter has judged, it has nothing more to grant. -/
theorem arbitrate_idem (s : State) : arbitrate (arbitrate s) = arbitrate s := by
  by_cases h1 : (s.loading || s.sound.read.isSome) = true
  · have : arbitrate s = s := by rw [arbitrate, if_pos h1]
    rw [this, this]
  · cases hg : s.sound.grant with
    | none =>
      have : arbitrate s = s := by rw [arbitrate, if_neg h1, hg]
      rw [this, this]
    | some g =>
      have : arbitrate s = { s with sound := { s.sound with
          read := some { voice := g.voice, start := g.start, size := g.size, timeout := s.now + Config.readTimeout } } } := by
        rw [arbitrate, if_neg h1, hg]
      rw [this, arbitrate, if_pos (by simp)]

theorem entriesLeft_le (s : State) : entriesLeft s ≤ 6 := by
  unfold entriesLeft
  split <;> (repeat' split) <;> omega

/-- The fuel is enough: when at most 57 entries wait, nothing is outstanding after settling (R54 to R56, R78). -/
theorem settle_still (s : State) (h : s.motion.notices.length ≤ 57) : Still (settle s) := by
  obtain ⟨h1, h2⟩ := settleLoop_quiet 64 s (by have := entriesLeft_le s; omega)
  unfold settle
  obtain ⟨r, e⟩ := arbitrate_eq (settleLoop 64 s)
  refine ⟨?_, ?_, arbitrate_idem _⟩
  · rw [e]
    exact h1
  · rw [e, judgeStanding_read, h2]

/-- Settling does nothing but the arbiter's grant where no judgement and no entry is outstanding. -/
theorem settle_quiet {s : State} (h1 : s.motion.notices = []) (h2 : judgeStanding s = s) : settle s = arbitrate s := by
  have : settleLoop 64 s = s := by
    rw [settleLoop]
    rw [h2, h1]
  rw [settle, this]

/-- Settling does nothing where nothing is outstanding. -/
theorem Still.settle {s : State} (h : Still s) : Machine.settle s = s :=
  (settle_quiet h.notices h.judged).trans h.granted

/-! ## Operations of single blocks that are of this kind -/

theorem conflicts_calm (n : Nat) (s : State) : Calm s (conflicts n s) :=
  Calm.foldl _ (fun a _ => latch_calm 13 a) _ _

theorem resumeAnnouncement_calm (s : State) : Calm s (resumeAnnouncement s) := by
  unfold resumeAnnouncement
  split
  · exact Calm.refl s
  · rename_i clip _
    split
    · exact Calm.refl s
    · have h := requestVoice_calm
        { clip := clip, priority := 3, gains := [128, 128, 128, 128], lock := none, tag := .resumeAnnouncement } s
      revert h
      generalize requestVoice
        { clip := clip, priority := 3, gains := [128, 128, 128, 128], lock := none, tag := .resumeAnnouncement } s = r
      intro h
      refine Calm.trans ?_ (stealEvent_calm _ _)
      exact Calm.trans h (Calm.motion _ _ rfl rfl rfl rfl rfl (Nat.le_refl _))

theorem badFrame_calm (s : State) : Calm s (badFrame s) := tally_calm _ _ _

theorem markPassed_calm (key : DurationKey) (counter : Nat) (s : State) : Calm s (markPassed key counter s) :=
  Calm.cond s _ (CondGrows.of_eq rfl rfl rfl (sameCounters rfl)) rfl rfl

theorem offerThreshold_calm (key : DurationKey) (counter : Nat) (s : State) : Calm s (offerThreshold key counter s) :=
  ((markPassed_calm key counter s).trans (tallyCore_calm _ _ _ _)).trans (latchTrips_calm _)

theorem latchClamped_calm (clamped : Bool) (s : State) : Calm s (latchClamped clamped s) := by
  unfold latchClamped
  split
  · exact latch_calm _ _
  · exact Calm.refl s

/-! ## A latched flag stays -/

theorem Latched.aside {s t : State} {id : Nat} (h : Latched s id) (a : Aside s t) : Latched t id := by
  obtain ⟨c, e, l⟩ := h
  unfold ConditionUnit.record at e
  split at e
  · exact absurd e (by simp)
  · rename_i hid
    obtain ⟨d, e2, r⟩ := a.grows.records _ c e
    exact ⟨d, by simp [ConditionUnit.record, hid, e2], r.latched l⟩

/-- An occurrence latches its flag (R123, step 1). -/
theorem latch_latched (id : Nat) (s : State) (hid : 1 ≤ id) (hlen : id ≤ s.cond.records.length) :
    Latched (latch id s) id := by
  have base : Latched (onRecord id (fun c => { c with latched := true }) s) id := by
    have hlt : id - 1 < s.cond.records.length := by omega
    have hne : ¬ id = 0 := by omega
    refine ⟨{ s.cond.records[id - 1] with latched := true }, ?_, rfl⟩
    simp [ConditionUnit.record, onRecord, hne, updateAt, List.getElem?_eq_getElem hlt]
  have occ : Latched (occurrenceBy atOnce false id s).1 id :=
    base.aside ((fillFirstFault_calm id _).trans (announceBy_calm atOnce_calm false id _)).toAside
  unfold latch latchBy
  rw [latchWithBy]
  refine occ.aside (Calm.toAside (Calm.trans ?_ (levelStepBy_calm atOnce_calm _ _)))
  split
  · exact (tallyCore_calm _ _ _ _).trans (Calm.foldl _ (fun a k => latchWithBy_calm atOnce_calm _ _ _ _) _ _)
  · exact Calm.refl _

end Sys2Proof.Safety
end

