-- ==== Sys2Proof/Laws/Blocks.lean ====
section
/-! SUPPORT. For the operations of each block, once, what they change: each is `Calm` but for the fields that its lemma
names. -/
namespace Sys2Proof.Safety
open Sys2Proof.Machine

/-! ## Calm beside a field that both states share -/

theorem Calm.withClaims {s t : State} (h : Calm s t) (cs : List Claim) :
    Calm { s with claims := cs } { t with claims := cs } :=
  ⟨⟨⟨h.outside.pending, h.outside.now, h.outside.resetHeld, h.outside.driveFaultIn, h.outside.localStopIn,
    h.outside.settings, h.outside.link, h.outside.peers, h.outside.route, h.outside.tracker, rfl, h.outside.loader,
    h.outside.running, h.outside.n, h.outside.fill, h.outside.lines, h.outside.seats, h.outside.dPrev,
    h.outside.immediate, h.outside.atStation, h.outside.record, h.outside.clips, h.outside.out, h.outside.read⟩,
   h.grows, ⟨h.sizes.counters, h.sizes.table, h.sizes.waiting, h.sizes.voices⟩, h.start, h.fault, h.estop, h.stopping, h.moving⟩,
    h.voices, h.entries, h.stands⟩

theorem Calm.withLink {s t : State} (h : Calm s t) (l : Link) : Calm { s with link := l } { t with link := l } :=
  ⟨⟨⟨h.outside.pending, h.outside.now, h.outside.resetHeld, h.outside.driveFaultIn, h.outside.localStopIn,
    h.outside.settings, rfl, h.outside.peers, h.outside.route, h.outside.tracker, h.outside.claims, h.outside.loader,
    h.outside.running, h.outside.n, h.outside.fill, h.outside.lines, h.outside.seats, h.outside.dPrev,
    h.outside.immediate, h.outside.atStation, h.outside.record, h.outside.clips, h.outside.out, h.outside.read⟩,
   h.grows, ⟨h.sizes.counters, h.sizes.table, h.sizes.waiting, h.sizes.voices⟩, h.start, h.fault, h.estop, h.stopping, h.moving⟩,
    h.voices, h.entries, h.stands⟩

/-- A step that is `Calm` but for the claim list. -/
def CalmClaims (s t : State) : Prop := Calm { s with claims := t.claims } t

theorem CalmClaims.refl (s : State) : CalmClaims s s := Calm.refl s

theorem CalmClaims.trans {a b c : State} (h : CalmClaims a b) (g : CalmClaims b c) : CalmClaims a c := by
  have h2 : Calm { a with claims := c.claims } { b with claims := c.claims } := Calm.withClaims h c.claims
  exact h2.trans g

theorem CalmClaims.of_calm {s t : State} (h : Calm s t) : CalmClaims s t := by
  have h2 := h.withClaims t.claims
  exact h2

/-- A change of the claim list alone. -/
theorem CalmClaims.set (s : State) (cs : List Claim) : CalmClaims s { s with claims := cs } := by
  exact Calm.refl { s with claims := cs }

theorem CalmClaims.foldl {α : Type} (f : State → α → State) (h : ∀ a x, CalmClaims a (f a x)) (xs : List α) (s : State) :
    CalmClaims s (xs.foldl f s) := by
  induction xs generalizing s with
  | nil => exact CalmClaims.refl s
  | cons x xs ih => exact (h s x).trans (ih (f s x))

/-! ## Cue Sequencer -/

theorem onCue_calm (id : Nat) (f : CueEntry → CueEntry) (s : State) : Calm s (onCue id f s) :=
  Calm.cues s _ (by simp [updateAt]) fun h => h

theorem watchOccurs_calm (id : Nat) (s : State) : Calm s (watchOccurs id s) :=
  (onCue_calm _ _ s).trans (cueOccur_calm _ _)

theorem judgeWatch_calm (id scene time : Nat) (s : State) : Calm s (judgeWatch id scene time s) := by
  unfold judgeWatch
  split
  · exact onCue_calm _ _ s
  · split
    · exact watchOccurs_calm _ s
    · exact onCue_calm _ _ s

theorem startWatch_calm (id scene time : Nat) (s : State) : Calm s (startWatch id scene time s) :=
  (onCue_calm _ _ s).trans (judgeWatch_calm _ _ _ _)

theorem watchChange_calm (r : Route) (ch : PosChange) (s : State) (id : Nat) : Calm s (watchChange r ch s id) := by
  unfold watchChange
  split
  · exact Calm.refl s
  · split
    · dsimp only
      split
      · split
        · exact onCue_calm _ _ s
        · exact Calm.refl s
      · split
        · exact startWatch_calm _ _ _ s
        · exact Calm.refl s
    · exact Calm.refl s

theorem clearFired_calm (s : State) : Calm s (clearFired s) := Calm.cues s _ (by simp) id

theorem markerTriggers_calm (code : Option Nat) (s : State) : Calm s (markerTriggers code s) := by
  unfold markerTriggers
  split
  · exact Calm.refl s
  · exact occurWhere_calm _ s

/-- R149: what a position change does at the Cue Sequencer is `Calm`. -/
theorem cuesChange_calm (r : Route) (ch : PosChange) (s : State) : Calm s (cuesChange r ch s) := by
  unfold cuesChange
  dsimp only
  have h1 := Calm.foldl _ cueOccur_calm (groundCues r ch.ground s) s
  generalize (groundCues r ch.ground s).foldl cueOccur s = s1 at h1 ⊢
  have h2 := markerTriggers_calm ch.code s1
  generalize markerTriggers ch.code s1 = s2 at h2 ⊢
  have h3 := Calm.foldl _ (watchChange_calm r ch) (List.range s2.cues.table.length) s2
  have h := (h1.trans h2).trans h3
  split
  · exact h.trans (clearFired_calm _)
  · exact h

theorem watchBeacon_calm (scene : Nat) (before : Option Nat) (s : State) (id : Nat) :
    Calm s (watchBeacon scene before s id) := by
  unfold watchBeacon
  split
  · exact Calm.refl s
  · split
    · split
      · exact Calm.refl s
      · dsimp only
        split
        · split
          · exact judgeWatch_calm _ _ _ s
          · exact onCue_calm _ _ s
        · split
          · exact startWatch_calm _ _ _ s
          · exact Calm.refl s
    · exact Calm.refl s

theorem cuesBeacon_calm (scene : Nat) (before : Option Nat) (s : State) : Calm s (cuesBeacon scene before s) :=
  Calm.foldl _ (watchBeacon_calm scene before) _ _

theorem onSceneCues_calm (scene : Nat) (f : CueEntry → CueEntry) (s : State) : Calm s (onSceneCues scene f s) :=
  Calm.cues s _ (by simp) id

theorem soundStart_calm (id clip priority : Nat) (gains : List Nat) (lock : Option SceneLock) (s : State) :
    Calm s (soundStart id clip priority gains lock s) := by
  unfold soundStart
  have h := requestVoice_calm
    { clip := clip, priority := priority, gains := gains, lock := lock, tag := .cue id } s
  revert h
  generalize requestVoice
    { clip := clip, priority := priority, gains := gains, lock := lock, tag := .cue id } s = r
  intro h
  dsimp only
  split
  · exact (h.trans (stealEvent_calm _ _)).trans (endReport_calm _ _ _)
  · exact h.trans (stealEvent_calm _ _)

theorem soundStop_calm (id named : Nat) (s : State) : Calm s (soundStop id named s) := by
  have h := stopVoices_engine s.now (fun w => w.state != .idle && w.tag = .cue named) s.sound
  exact (((Calm.sound s _ h).trans (arbitrate_calm _)).trans
    (Calm.foldl _ (fun a t => endWithout_calm t a) _ _)).trans (cueDone_calm _ _)

/-! ## Zone Claim Unit -/

theorem reportAll_claims (rs : List Report) (s : State) : (reportAll rs s).claims = s.claims :=
  (reportAll_calm rs s).outside.claims

theorem evaluateClaims_none {s : State} (h : s.placed = none) : evaluateClaims s = s := by
  unfold evaluateClaims
  rw [h]

/-- R88: an evaluation changes the claim list to the judged entries, and beside it is `Calm`. -/
theorem evaluateClaims_some {s : State} {r : Route} {x : Nat} (h : s.placed = some (r, x)) :
    Calm { s with claims := (s.claims.map (judgeClaim r s)).map Prod.fst } (evaluateClaims s) := by
  unfold evaluateClaims
  rw [h]
  exact reportAll_calm _ _

theorem evaluateClaims_claims {s : State} {r : Route} {x : Nat} (h : s.placed = some (r, x)) :
    (evaluateClaims s).claims = (s.claims.map (judgeClaim r s)).map Prod.fst :=
  (evaluateClaims_some h).outside.claims

theorem evaluateClaims_calm (s : State) : CalmClaims s (evaluateClaims s) := by
  cases h : s.placed with
  | none => rw [evaluateClaims_none h]; exact CalmClaims.refl s
  | some p =>
    rw [CalmClaims, evaluateClaims_claims (x := p.2) (r := p.1) h]
    exact evaluateClaims_some h

theorem zoneLeaves_calm (zs : List Nat) (s : State) : Calm s (zs.foldl zoneLeave s) := Calm.foldl _ zoneLeave_calm zs s

/-- R82: the release step changes the claim list and is beside it `Calm`. -/
theorem releaseClaims_calm (r : Route) (ch : PosChange) (s : State) :
    Calm { s with claims := (releaseStep r s.settings.bodyLength ch.span s.claims).1 } (releaseClaims r ch s) :=
  zoneLeaves_calm _ _

theorem releaseClaims_claims (r : Route) (ch : PosChange) (s : State) :
    (releaseClaims r ch s).claims = (releaseStep r s.settings.bodyLength ch.span s.claims).1 :=
  (releaseClaims_calm r ch s).outside.claims

theorem withdrawClaims_calm (r : Route) (s : State) : CalmClaims s (withdrawClaims r s) := CalmClaims.set _ _
theorem placeClaims_calm (r : Route) (s : State) : CalmClaims s (placeClaims r s) := CalmClaims.set _ _

/-- R84, R85: the entry step changes the claim list and is beside it `Calm`. -/
theorem enterZone_calm (r : Route) (s : State) (z : Nat) :
    Calm { s with claims := entryList r (r.tailOf s.settings.bodyLength s.front) (r.zoneAt s.front) s.claims z }
      (enterZone r s z) := by
  unfold enterZone
  dsimp only
  split
  · split
    · exact Calm.refl _
    · exact latch_calm 13 _
  · exact ((zoneLeaves_calm (makeRoom r (r.tailOf s.settings.bodyLength s.front) (r.zoneAt s.front) s.claims).2
      { s with claims := (makeRoom r (r.tailOf s.settings.bodyLength s.front) (r.zoneAt s.front) s.claims).1 }).withClaims
        (entryList r (r.tailOf s.settings.bodyLength s.front) (r.zoneAt s.front) s.claims z)).trans (latch_calm 13 _)

theorem enterZone_claims (r : Route) (s : State) (z : Nat) : (enterZone r s z).claims
    = entryList r (r.tailOf s.settings.bodyLength s.front) (r.zoneAt s.front) s.claims z :=
  (enterZone_calm r s z).outside.claims

theorem CalmClaims.of_set {s t : State} {cs : List Claim} (h : Calm { s with claims := cs } t) : CalmClaims s t := by
  rw [CalmClaims, h.outside.claims]
  exact h

/-- What the front's place is read from stays in a step that is `Calm` but for the claim list. -/
theorem CalmClaims.front {s t : State} (h : CalmClaims s t) : t.front = s.front := by
  unfold State.front
  rw [h.outside.tracker]

theorem enterZones_claims (r : Route) (zs : List Nat) (s : State) : (zs.foldl (enterZone r) s).claims
    = zs.foldl (entryList r (r.tailOf s.settings.bodyLength s.front) (r.zoneAt s.front)) s.claims := by
  induction zs generalizing s with
  | nil => rfl
  | cons z zs ih =>
    have h : CalmClaims s (enterZone r s z) := CalmClaims.of_set (enterZone_calm r s z)
    rw [List.foldl_cons, List.foldl_cons, ih, h.front, h.outside.settings, enterZone_claims]

/-- R81, R86: what a position change does at the Zone Claim Unit is `Calm` but for the claim list. -/
theorem claimsChange_calm (r : Route) (ch : PosChange) (s : State) : CalmClaims s (claimsChange r ch s) := by
  unfold claimsChange
  split
  · unfold initialClaims
    dsimp only
    exact CalmClaims.of_set (conflicts_calm _ _)
  · unfold movedClaims
    dsimp only
    refine CalmClaims.trans (CalmClaims.of_set (releaseClaims_calm r ch s)) ?_
    refine CalmClaims.trans (withdrawClaims_calm r _) ?_
    refine CalmClaims.trans ?_ (placeClaims_calm r _)
    exact CalmClaims.foldl _ (fun a z => CalmClaims.of_set (enterZone_calm r a z)) _ _

/-- R81: the claim list after the four steps, from the list before them. -/
theorem movedClaims_claims (r : Route) (ch : PosChange) (s : State) :
    (movedClaims r ch s).claims = claimsAfter r ch.span s.settings s.now s.front s.claims := by
  have h1 : CalmClaims s (releaseClaims r ch s) := CalmClaims.of_set (releaseClaims_calm r ch s)
  have h2 : CalmClaims s (withdrawClaims r (releaseClaims r ch s)) := h1.trans (withdrawClaims_calm r _)
  have h3 := h2.trans (CalmClaims.foldl _ (fun a z => CalmClaims.of_set (enterZone_calm r a z))
    (entryZones r s.settings.bodyLength s.front ch.span) _)
  unfold movedClaims placeClaims
  dsimp only
  rw [h3.front, h3.outside.settings, h3.outside.now, enterZones_claims, h2.front, h2.outside.settings]
  dsimp only [withdrawClaims]
  rw [h1.front, h1.outside.settings, releaseClaims_claims]
  rfl

/-! ## A free order -/

theorem eitherOrder_calm {f g : State → State} (hf : ∀ s, Calm s (f s)) (hg : ∀ s, Calm s (g s)) (s : State) :
    Calm s (eitherOrder f g s) := by
  unfold eitherOrder
  dsimp only
  split
  · exact ((Calm.draws s _).trans (hf _)).trans (hg _)
  · exact ((Calm.draws s _).trans (hg _)).trans (hf _)

theorem eitherOrder_calmClaims {f g : State → State} (hf : ∀ s, CalmClaims s (f s))
    (hg : ∀ s, CalmClaims s (g s)) (s : State) : CalmClaims s (eitherOrder f g s) := by
  unfold eitherOrder
  dsimp only
  split
  · exact ((CalmClaims.of_calm (Calm.draws s _)).trans (hf _)).trans (hg _)
  · exact ((CalmClaims.of_calm (Calm.draws s _)).trans (hg _)).trans (hf _)

/-! ## Position Tracker -/

theorem motionArrival_calm (ch : PosChange) (s : State) : Calm s (motionArrival ch s) := by
  unfold motionArrival
  split
  · rename_i h
    simp only [Bool.and_eq_true, Bool.or_eq_true, decide_eq_true_eq] at h
    refine ⟨enter_aside .parked s (by simp) ?_ ?_ ?_ ?_, VoicesCalm.refl _, fun cs => ?_, fun k => ?_⟩
    · rcases h.2 with e | e <;> simp [e]
    · rcases h.2 with e | e <;> simp [e]
    · rcases h.2 with e | e <;> simp [e]
    · rcases h.2 with e | e <;> simp [e]
    · refine enter_measure _ (s := { s with claims := cs }) ?_
      rw [enter_entriesLeft]
      dsimp only
      have h2 : entriesLeft { s with claims := cs } = 6 := by
        unfold entriesLeft
        rcases h.2 with e | e <;> dsimp only <;> rw [e]
      rw [h2]
      (repeat' split) <;> omega
    · rcases h.2 with e | e <;> rw [e] at k <;> exact Nat.le_trans k (by decide)
  · exact Calm.refl s

theorem stationWithdraw_calm (s : State) : Calm s (stationWithdraw s) := by
  unfold stationWithdraw
  split
  · exact Calm.refl s
  · exact withdrawUnlock_calm s

theorem speedWithdraw_calm (s : State) : Calm s (speedWithdraw s) := by
  unfold speedWithdraw
  split
  · exact Calm.refl s
  · exact withdrawUnlock_calm s

/-- R45: the handing on of a position change gives the new tracker and is beside it `Calm` but for the claim list. -/
theorem handOn_calm (r : Route) (res : TrackerResult) (s : State) :
    CalmClaims { s with tracker := res.tracker } (handOn r res s) := by
  unfold handOn
  dsimp only
  refine CalmClaims.trans ?_ (CalmClaims.of_calm (stationWithdraw_calm _))
  refine CalmClaims.trans ?_ (CalmClaims.of_calm (motionArrival_calm _ _))
  refine CalmClaims.trans (CalmClaims.of_calm (judgeBerth_calm _)) ?_
  exact eitherOrder_calmClaims (fun a => CalmClaims.of_calm (reportAll_calm _ a))
    (fun a => eitherOrder_calmClaims (claimsChange_calm r res.change)
      (fun b => CalmClaims.of_calm (cuesChange_calm r res.change b)) a) _

theorem handOn_tracker (r : Route) (res : TrackerResult) (s : State) : (handOn r res s).tracker = res.tracker :=
  (handOn_calm r res s).outside.tracker

/-! ## Sound Engine -/

theorem frameReport_calm (s : State) (p : Voice × Option VoiceFrame) : Calm s (frameReport s p) := by
  unfold frameReport
  split
  · exact Calm.refl s
  · rename_i f _
    dsimp only
    have h : Calm s (if f.starves = true then tally .soundUnderrun 1 s else s) := by
      split
      · exact tally_calm _ _ s
      · exact Calm.refl s
    split
    · exact h
    · exact h.trans (endReport_calm _ _ _)

theorem frees_calm {α : Type} (now : Nat) (f : α → Nat) (xs : List α) (e : SoundEngine) :
    EngineCalm now e (xs.foldl (fun a p => a.free (f p)) e) := by
  induction xs generalizing e with
  | nil => exact EngineCalm.refl now e
  | cons x xs ih => exact (free_calm now e (f x)).trans (ih _)

/-- R177: the output after a frame. -/
theorem advance_engine (e : SoundEngine) :
    e.advance.clips = e.clips ∧ e.advance.voices.length = e.voices.length
      ∧ e.advance.out = [mixOut (e.mixSum 0), mixOut (e.mixSum 1), mixOut (e.mixSum 2), mixOut (e.mixSum 3)] := by
  unfold SoundEngine.advance
  dsimp only
  obtain ⟨h1, h2, h3, _, _⟩ := frees_calm 0 (fun p : Option VoiceFrame × Nat => p.2)
    (e.frames.zipIdx.filter fun (f, _) => (f.bind VoiceFrame.ended).isSome)
    { e with
      out := [mixOut (e.mixSum 0), mixOut (e.mixSum 1), mixOut (e.mixSum 2), mixOut (e.mixSum 3)]
      voices := (e.voices.zip e.frames).map fun (w, f) => match f with
        | none => w
        | some q => q.voice }
  refine ⟨h1, h3.trans ?_, h2⟩
  simp [SoundEngine.frames]

/-- R169: a frame is `Calm` but for the engine it advances. -/
theorem outputFrame_calm (s : State) : Calm { s with sound := s.sound.advance } (outputFrame s) :=
  (arbitrate_calm _).trans (Calm.foldl _ frameReport_calm _ _)

/-- R168: the timeout of a read. -/
theorem readFails_calm (r : Read) (s : State) : Calm s (readFails r s) := by
  unfold readFails
  dsimp only
  have h : ∀ b, Calm s (arbitrate { latch 18 s with sound := (latch 18 s).sound.dropRead r b }) := fun b =>
    ((latch_calm 18 s).trans (Calm.sound _ _ (dropRead_engine _ _ r b))).trans (arbitrate_calm _)
  split
  · exact (h _).trans (endReport_calm _ _ _)
  · exact h _

theorem beaconStep_calm (scene estimate : Nat) (acc : State × List VoiceTag) (v : Nat) :
    Calm acc.1 (beaconStep scene estimate acc v).1 := by
  exact (Calm.sound acc.1 _ (beaconVoice_engine acc.1.now acc.1.settings.resync scene estimate acc.1.sound v)).trans
    (arbitrate_calm _)

theorem soundBeacon_calm (scene : Nat) (s : State) : Calm s (soundBeacon scene s) := by
  unfold soundBeacon
  split
  · exact Calm.refl s
  · rename_i est _
    refine Calm.trans ?_ (Calm.foldl (fun (a : State) (t : VoiceTag) => endReport t true a)
      (fun a t => endReport_calm t true a) _ _)
    generalize List.range s.sound.voices.length = vs
    suffices h : ∀ (vs : List Nat) (acc : State × List VoiceTag), Calm acc.1 (vs.foldl (beaconStep scene est) acc).1 from
      h vs (s, [])
    intro vs
    induction vs with
    | nil => intro acc; exact Calm.refl _
    | cons v vs ih => intro acc; exact (beaconStep_calm scene est acc v).trans (ih _)

/-! ## Peer Table -/

theorem routeCheck_calm (body : List Byte) (s : State) : Calm s (routeCheck body s) := by
  unfold routeCheck
  split
  · exact Calm.refl s
  · split
    · exact Calm.refl s
    · exact latch_calm _ s

theorem framesLostEvent_calm (lost : Nat) (s : State) : Calm s (framesLostEvent lost s) := by
  unfold framesLostEvent
  split
  · exact Calm.refl s
  · exact tally_calm _ _ s

theorem sceneReplaced_calm (source : Nat) (before : Option Peer) (kind : StationKind) (s : State) :
    Calm s (sceneReplaced source before kind s) := by
  unfold sceneReplaced
  split
  · exact Calm.refl s
  · split
    · exact onSceneCues_calm _ _ s
    · exact Calm.refl s

theorem handBeacon_calm (source : Nat) (kind : StationKind) (body : List Byte) (before : Option Peer) (s : State) :
    CalmClaims s (handBeacon source kind body before s) := by
  unfold handBeacon
  split
  · exact (evaluateClaims_calm s).trans (CalmClaims.of_calm (routeCheck_calm _ _))
  · exact CalmClaims.of_calm (eitherOrder_calm (cuesBeacon_calm _ _) (soundBeacon_calm _) s)
  · exact CalmClaims.refl s
  · exact CalmClaims.refl s

end Sys2Proof.Safety
end

