-- ==== Sys2Proof/Laws/Frames.lean ====
section
/-! SUPPORT. Fields and check words: a two-byte field written is the field read, and an appended check word is the one
that the check forms (R10, R187). -/
namespace Sys2Proof.Laws
open Sys2Proof.Machine

theorem byteOf_toNat (v : Nat) : (byteOf v).toNat = v % 256 := by simp [byteOf]

theorem bytes2_length (v : Nat) : (bytes2 v).length = 2 := rfl

theorem byteAt_append_right (xs ys : List Byte) (i : Nat) : byteAt (xs ++ ys) (xs.length + i) = byteAt ys i := by
  simp [byteAt, List.getD_eq_getElem?_getD, List.getElem?_append_right]

theorem byteAt_append_left (xs ys : List Byte) (i : Nat) (h : i < xs.length) : byteAt (xs ++ ys) i = byteAt xs i := by
  simp [byteAt, List.getD_eq_getElem?_getD, List.getElem?_append_left h]

/-- R187: a two-byte field behind a run of bytes is read back. -/
theorem half2_bytes2 (xs : List Byte) (v : Nat) (h : v < 65536) : half2 (xs ++ bytes2 v) xs.length = v := by
  have h0 := byteAt_append_right xs (bytes2 v) 0
  have h1 := byteAt_append_right xs (bytes2 v) 1
  simp only [Nat.add_zero] at h0
  simp only [half2, h0, h1]
  simp [byteAt, bytes2, byteOf]
  omega

/-- R10: a check word appended to a run of bytes is the one that its check forms. -/
theorem checkWord_append (xs : List Byte) :
    half2 (xs ++ bytes2 (crc16 xs).toNat) xs.length
      = (crc16 ((xs ++ bytes2 (crc16 xs).toNat).take xs.length)).toNat := by
  rw [half2_bytes2 _ _ (crc16 xs).isLt, List.take_left]

end Sys2Proof.Laws
end

