-- ==== Sys2Proof/Laws/Level.lean ====
section
/-! SUPPORT. R128: an occurrence hands the level on, and no shared operation leaves a change of the level behind that
is not handed on. -/
namespace Sys2Proof.Safety
open Sys2Proof.Machine

/-- The level last handed on is the level. -/
def Handed (s : State) : Prop := s.cond.handed = levelOf s.cond.records

/-- An operation under which a handed level stays handed. -/
def Hands (f : State → State) : Prop := ∀ s, Handed s → Handed (f s)

theorem Handed.of_eq {s t : State} (h : Handed s) (e1 : t.cond.records = s.cond.records)
    (e2 : t.cond.handed = s.cond.handed) : Handed t := by
  unfold Handed
  rw [e1, e2]
  exact h

theorem Handed.foldl {α : Type} {f : State → α → State} (h : ∀ x s, Handed s → Handed (f s x)) (xs : List α) {s : State}
    (hs : Handed s) : Handed (xs.foldl f s) := by
  induction xs generalizing s with
  | nil => exact hs
  | cons x xs ih => exact ih (h x s hs)

/-! ## Sound, cues, motion -/

theorem arbitrate_handed : Hands arbitrate := fun s h => by
  obtain ⟨r, e⟩ := arbitrate_eq s
  rw [e]
  exact h

/-! ## The operations by a hand-over that hands the level on -/

/-- R128: the level has been handed on. -/
theorem handLevelBy_handed {h : State → State} (hh : Hands h) (s : State) : Handed (handLevelBy h s) := by
  unfold handLevelBy
  split
  · rename_i e
    exact e.symm
  · refine hh _ ?_
    generalize hx : ({ s with cond := { s.cond with handed := s.level } } : State) = x
    have h2 : x.cond.handed = levelOf x.cond.records := by rw [← hx]; rfl
    show (applyLevel x).cond.handed = levelOf (applyLevel x).cond.records
    rw [applyLevel_cond, h2]

theorem levelStepBy_handed {h : State → State} (hh : Hands h) (s : State) : Handed (levelStepBy h false s) := by
  unfold levelStepBy
  rw [if_neg (by simp)]
  exact handLevelBy_handed hh s

theorem endWithoutBy_handed {h : State → State} (hh : Hands h) (tag : VoiceTag) : Hands (endWithoutBy h false tag) :=
  fun s hs => by
    unfold endWithoutBy
    split
    · exact hs
    · exact levelStepBy_handed hh _
    · exact hs
    · exact hs

theorem requestVoiceBy_handed {h : State → State} (hh : Hands h) (req : StartRequest) (s : State) (hs : Handed s) :
    Handed (requestVoiceBy h false req s).1 := by
  unfold requestVoiceBy
  dsimp only
  have h1 : Handed (arbitrate { s with sound := (startVoice s req).engine }) := arbitrate_handed _ hs
  split
  · exact h1
  · exact endWithoutBy_handed hh _ _ h1

/-- R128: an occurrence hands the level on. -/
theorem latchWithBy_handed {h : State → State} (hh : Hands h) (n id : Nat) (s : State) :
    Handed (latchWithBy h false n id s) := by
  cases n <;> (rw [latchWithBy]; exact levelStepBy_handed hh _)

theorem latchBy_handed {h : State → State} (hh : Hands h) (id : Nat) (s : State) : Handed (latchBy h id s) :=
  latchWithBy_handed hh _ _ _

theorem tallyCore_handed (offered : Nat → Bool) (event : TallyEvent) (amount : Nat) (s : State) (h : Handed s) :
    Handed (tallyCore offered event amount s).1 := h

theorem latchTripsBy_handed {h : State → State} (hh : Hands h) (r : State × List Nat) (hr : Handed r.1) :
    Handed (latchTripsBy h r) :=
  Handed.foldl (fun _ _ _ => latchBy_handed hh _ _) _ hr

theorem tallyBy_handed {h : State → State} (hh : Hands h) (event : TallyEvent) (amount : Nat) :
    Hands (tallyBy h event amount) :=
  fun s hs => latchTripsBy_handed hh _ (tallyCore_handed _ _ _ s hs)

theorem stealEventBy_handed {h : State → State} (hh : Hands h) (r : StartResult) : Hands (stealEventBy h r) :=
  fun s hs => by
    unfold stealEventBy
    split
    · exact tallyBy_handed hh _ _ _ hs
    · exact hs

theorem cueOccurBy_handed {h : State → State} (hh : Hands h) (id : Nat) (s : State) (hs : Handed s) :
    Handed (cueOccurBy h s id) := by
  unfold cueOccurBy
  split
  · exact hs
  · split
    · exact hs
    · split
      · exact latchBy_handed hh _ _
      · exact hs

theorem occurWhereBy_handed {h : State → State} (hh : Hands h) (p : CueTrigger → Bool) : Hands (occurWhereBy h p) :=
  fun _ hs => Handed.foldl (cueOccurBy_handed hh) _ hs

theorem stopAnnouncementBy_handed {h : State → State} (hh : Hands h) : Hands (stopAnnouncementBy h) := fun s hs => by
  unfold stopAnnouncementBy
  split
  · exact hs
  · split
    · exact hs
    · exact stealEventBy_handed hh _ _ ((requestVoiceBy_handed hh _ _ hs).of_eq rfl rfl)

theorem fadeShowBy_handed {h : State → State} (hh : Hands h) : Hands (fadeShowBy h) := fun s hs =>
  Handed.foldl (fun t _ ha => endWithoutBy_handed hh t _ ha) _
    (arbitrate_handed _ (hs.of_eq (t := { s with sound := _ }) rfl rfl))

theorem deliverBy_handed {h : State → State} (hh : Hands h) (st : MotionState) : Hands (deliverBy h st) := fun s hs => by
  unfold deliverBy
  dsimp only
  refine occurWhereBy_handed hh _ _ ?_
  have h1 : Handed (if st = .parked then s else withdrawUnlock s) := by split <;> exact hs
  generalize (if st = .parked then s else withdrawUnlock s) = a at h1 ⊢
  have h2 : Handed (if st = .holding then startDuration .holdLong a else endDuration .holdLong a) := by
    split <;> exact h1
  generalize (if st = .holding then startDuration .holdLong a else endDuration .holdLong a) = b at h2 ⊢
  split
  · exact (stopAnnouncementBy_handed hh _ (fadeShowBy_handed hh _ h2)).of_eq rfl rfl
  · exact h2

theorem waits_handed : Hands waits := fun _ hs => hs

theorem handNotices_handed (fuel : Nat) : Hands (handNotices fuel) := by
  induction fuel with
  | zero => exact fun _ hs => hs
  | succ n ih =>
    intro s hs
    rw [handNotices]
    split
    · exact hs
    · exact ih _ (deliverBy_handed waits_handed _ _ (hs.of_eq rfl rfl))

theorem atOnce_handed : Hands atOnce := handNotices_handed 64

/-! ## The operations as commands use them -/

theorem handLevel_handed (s : State) : Handed (handLevel s) := handLevelBy_handed atOnce_handed s
theorem endWithout_handed (tag : VoiceTag) : Hands (endWithout tag) := endWithoutBy_handed atOnce_handed tag
theorem requestVoice_handed (req : StartRequest) (s : State) (h : Handed s) : Handed (requestVoice req s).1 :=
  requestVoiceBy_handed atOnce_handed req s h
theorem latch_handed (id : Nat) (s : State) : Handed (latch id s) := latchBy_handed atOnce_handed _ _
theorem latchTrips_handed (r : State × List Nat) (h : Handed r.1) : Handed (latchTrips r) :=
  latchTripsBy_handed atOnce_handed r h
theorem tally_handed (event : TallyEvent) (amount : Nat) : Hands (tally event amount) := tallyBy_handed atOnce_handed _ _
theorem stealEvent_handed (r : StartResult) : Hands (stealEvent r) := stealEventBy_handed atOnce_handed r
theorem cueOccur_handed (id : Nat) (s : State) (h : Handed s) : Handed (cueOccur s id) :=
  cueOccurBy_handed atOnce_handed id s h
theorem occurWhere_handed (p : CueTrigger → Bool) : Hands (occurWhere p) := occurWhereBy_handed atOnce_handed p

theorem reportAll_handed (rs : List Report) : Hands (reportAll rs) := fun _ h =>
  Handed.foldl (fun r a ha => by cases r <;> dsimp only <;> first | exact tally_handed _ _ _ ha | exact latch_handed _ _) _ h

theorem endReport_handed (tag : VoiceTag) (completed : Bool) : Hands (endReport tag completed) := fun s h => by
  unfold endReport
  split
  · split
    · exact occurWhere_handed _ _ h
    · exact h
  all_goals exact endWithout_handed _ _ h

/-! ## Settling -/

theorem judgeStanding_handed : Hands judgeStanding := fun s h => by
  unfold judgeStanding
  split <;> (repeat' split) <;> exact h

theorem judgeBerth_handed : Hands judgeBerth := fun s h => by
  unfold judgeBerth
  split <;> (repeat' split) <;> first | exact h | exact atOnce_handed _ h

theorem judgeStanding_stands (s : State) (h : LevelOk s) : LevelOk (judgeStanding s) := by
  refine ⟨judgeStanding_handed s h.handed, ?_⟩
  have h1 := h.stands
  have hr := @readyMet_facts s
  unfold judgeStanding
  split <;> rename_i e <;> rw [e] at h1 <;> (repeat' split) <;>
    first
      | (rw [e]; exact h1)
      | exact h1
      | exact (hr (by assumption)).1
      | exact Nat.le_trans h1 (by decide)

/-- What `Calm` operations that hand the level on keep. -/
theorem Calm.levelOk {s t : State} (h : Calm s t) (hh : Handed t) (hs : LevelOk s) : LevelOk t := by
  refine ⟨hh, ?_⟩
  have h1 := h.stands (by rw [hs.handed]; exact hs.stands)
  have h2 : t.level = t.cond.handed := hh.symm
  rw [h2]
  exact h1

theorem settleLoop_levelOk (fuel : Nat) (s : State) (h : LevelOk s) : LevelOk (settleLoop fuel s) := by
  induction fuel generalizing s with
  | zero => exact ⟨h.handed, h.stands⟩
  | succ n ih =>
    rw [settleLoop]
    have hj := judgeStanding_stands s h
    split
    · exact hj
    · exact ih _ (Calm.levelOk (atOnce_calm _) (atOnce_handed _ hj.handed) hj)

theorem settle_levelOk (s : State) (h : LevelOk s) : LevelOk (settle s) :=
  Calm.levelOk (arbitrate_calm _) (arbitrate_handed _ (settleLoop_levelOk 64 s h).handed) (settleLoop_levelOk 64 s h)

/-! ## The blocks -/

theorem onCue_handed (id : Nat) (f : CueEntry → CueEntry) : Hands (onCue id f) := fun _ h => h

theorem judgeWatch_handed (id scene time : Nat) : Hands (judgeWatch id scene time) := fun s h => by
  unfold judgeWatch
  split
  · exact h
  · split
    · exact cueOccur_handed _ _ h
    · exact h

theorem watchChange_handed (r : Route) (ch : PosChange) (id : Nat) (s : State) (h : Handed s) :
    Handed (watchChange r ch s id) := by
  unfold watchChange
  split
  · exact h
  · split
    · dsimp only
      repeat' split
      all_goals first | exact h | exact judgeWatch_handed _ _ _ _ h
    · exact h

theorem cuesChange_handed (r : Route) (ch : PosChange) : Hands (cuesChange r ch) := fun s h => by
  unfold cuesChange
  dsimp only
  have h1 := Handed.foldl cueOccur_handed (groundCues r ch.ground s) h
  generalize (groundCues r ch.ground s).foldl cueOccur s = s1 at h1 ⊢
  have h2 : Handed (markerTriggers ch.code s1) := by
    unfold markerTriggers
    split
    · exact h1
    · exact occurWhere_handed _ _ h1
  generalize markerTriggers ch.code s1 = s2 at h2 ⊢
  have h3 := Handed.foldl (watchChange_handed r ch) (List.range s2.cues.table.length) h2
  split <;> exact h3

theorem watchBeacon_handed (scene : Nat) (before : Option Nat) (id : Nat) (s : State) (h : Handed s) :
    Handed (watchBeacon scene before s id) := by
  unfold watchBeacon
  split
  · exact h
  · split
    · split
      · exact h
      · dsimp only
        repeat' split
        all_goals first | exact h | exact judgeWatch_handed _ _ _ _ h
    · exact h

theorem cuesBeacon_handed (scene : Nat) (before : Option Nat) : Hands (cuesBeacon scene before) := fun _ h =>
  Handed.foldl (watchBeacon_handed scene before) _ h

theorem soundStart_handed (id clip priority : Nat) (gains : List Nat) (lock : Option SceneLock) :
    Hands (soundStart id clip priority gains lock) := fun s h => by
  unfold soundStart
  dsimp only
  have h1 := stealEvent_handed (requestVoice
    { clip := clip, priority := priority, gains := gains, lock := lock, tag := .cue id } s).2 _
    (requestVoice_handed { clip := clip, priority := priority, gains := gains, lock := lock, tag := .cue id } s h)
  split
  · exact endReport_handed _ _ _ h1
  · exact h1

theorem soundStop_handed (id named : Nat) : Hands (soundStop id named) := fun s h =>
  occurWhere_handed _ _ (Handed.foldl (fun t _ ha => endWithout_handed t _ ha) _
    (arbitrate_handed _ (h.of_eq (t := { s with sound := _ }) rfl rfl)))

theorem conflicts_handed (n : Nat) : Hands (conflicts n) := fun _ h => Handed.foldl (fun _ _ _ => latch_handed _ _) _ h

theorem evaluateClaims_handed : Hands evaluateClaims := fun s h => by
  unfold evaluateClaims
  split
  · exact h
  · exact reportAll_handed _ _ h

theorem zoneLeaves_handed (zs : List Nat) (s : State) (h : Handed s) : Handed (zs.foldl zoneLeave s) :=
  Handed.foldl (fun _ _ ha => occurWhere_handed _ _ ha) _ h

theorem enterZone_handed (r : Route) (z : Nat) (s : State) (h : Handed s) : Handed (enterZone r s z) := by
  unfold enterZone
  dsimp only
  split
  · split
    · exact h
    · exact latch_handed _ _
  · exact latch_handed _ _

theorem claimsChange_handed (r : Route) (ch : PosChange) : Hands (claimsChange r ch) := fun s h => by
  unfold claimsChange
  split
  · exact conflicts_handed _ _ h
  · have h1 : Handed (releaseClaims r ch s) := zoneLeaves_handed _ _ h
    exact Handed.foldl (enterZone_handed r) (entryZones r s.settings.bodyLength s.front ch.span)
      (s := withdrawClaims r (releaseClaims r ch s)) h1

theorem eitherOrder_handed {f g : State → State} (hf : Hands f) (hg : Hands g) : Hands (eitherOrder f g) := fun s h => by
  unfold eitherOrder
  dsimp only
  split
  · exact hg _ (hf _ h)
  · exact hf _ (hg _ h)

theorem handOn_handed (r : Route) (res : TrackerResult) : Hands (handOn r res) := fun s h => by
  unfold handOn
  dsimp only
  have h1 : Handed (eitherOrder (reportAll res.reports) (eitherOrder (claimsChange r res.change) (cuesChange r res.change))
      (judgeBerth { s with tracker := res.tracker })) :=
    eitherOrder_handed (reportAll_handed _) (eitherOrder_handed (claimsChange_handed _ _) (cuesChange_handed _ _)) _
      (judgeBerth_handed _ (h.of_eq rfl rfl))
  generalize eitherOrder (reportAll res.reports) (eitherOrder (claimsChange r res.change) (cuesChange r res.change))
      (judgeBerth { s with tracker := res.tracker }) = a at h1 ⊢
  have h2 : Handed (motionArrival res.change a) := by
    unfold motionArrival
    split <;> exact h1
  generalize motionArrival res.change a = b at h2 ⊢
  unfold stationWithdraw
  split <;> exact h2

theorem frameReport_handed (p : Voice × Option VoiceFrame) (s : State) (h : Handed s) : Handed (frameReport s p) := by
  unfold frameReport
  split
  · exact h
  · rename_i f _
    dsimp only
    have h1 : Handed (if f.starves = true then tally .soundUnderrun 1 s else s) := by
      split
      · exact tally_handed _ _ _ h
      · exact h
    split
    · exact h1
    · exact endReport_handed _ _ _ h1

theorem outputFrame_handed : Hands outputFrame := fun s h =>
  Handed.foldl frameReport_handed _ (arbitrate_handed _ (h.of_eq (t := { s with sound := _ }) rfl rfl))

theorem readFails_handed (r : Read) (s : State) : Handed (readFails r s) := by
  unfold readFails
  dsimp only
  have h : ∀ b, Handed (arbitrate { latch 18 s with sound := (latch 18 s).sound.dropRead r b }) := fun b =>
    arbitrate_handed _ ((latch_handed 18 s).of_eq rfl rfl)
  split
  · exact endReport_handed _ _ _ (h _)
  · exact h _

theorem beaconStep_handed (scene estimate : Nat) (acc : State × List VoiceTag) (v : Nat) (h : Handed acc.1) :
    Handed (beaconStep scene estimate acc v).1 := arbitrate_handed _ (h.of_eq rfl rfl)

theorem soundBeacon_handed (scene : Nat) : Hands (soundBeacon scene) := fun s h => by
  unfold soundBeacon
  split
  · exact h
  · rename_i est _
    refine Handed.foldl (fun t _ ha => endReport_handed t true _ ha) _ ?_
    generalize List.range s.sound.voices.length = vs
    suffices g : ∀ (vs : List Nat) (acc : State × List VoiceTag), Handed acc.1 →
        Handed (vs.foldl (beaconStep scene est) acc).1 from g vs (s, []) h
    intro vs
    induction vs with
    | nil => intro acc h; exact h
    | cons v vs ih => intro acc h; exact ih _ (beaconStep_handed scene est acc v h)

theorem routeCheck_handed (body : List Byte) : Hands (routeCheck body) := fun s h => by
  unfold routeCheck
  split
  · exact h
  · split
    · exact h
    · exact latch_handed _ _

theorem framesLostEvent_handed (lost : Nat) : Hands (framesLostEvent lost) := fun s h => by
  unfold framesLostEvent
  split
  · exact h
  · exact tally_handed _ _ _ h

theorem sceneReplaced_handed (source : Nat) (before : Option Peer) (kind : StationKind) :
    Hands (sceneReplaced source before kind) := fun s h => by
  unfold sceneReplaced
  split
  · exact h
  · split <;> exact h

theorem handBeacon_handed (source : Nat) (kind : StationKind) (body : List Byte) (before : Option Peer) :
    Hands (handBeacon source kind body before) := fun s h => by
  unfold handBeacon
  split
  · exact routeCheck_handed _ _ (evaluateClaims_handed _ h)
  · exact eitherOrder_handed (cuesBeacon_handed _ _) (soundBeacon_handed _) _ h
  · exact h
  · exact h

theorem resumeAnnouncement_handed : Hands resumeAnnouncement := fun s h => by
  unfold resumeAnnouncement
  split
  · exact h
  · split
    · exact h
    · exact stealEvent_handed _ _ ((requestVoice_handed _ _ h).of_eq rfl rfl)

theorem offerThreshold_handed (key : DurationKey) (counter : Nat) : Hands (offerThreshold key counter) :=
  fun s h => latchTrips_handed _ (tallyCore_handed _ _ _ _ (h.of_eq (t := markPassed key counter s) rfl rfl))

theorem latchClamped_handed (clamped : Bool) : Hands (latchClamped clamped) := fun s h => by
  unfold latchClamped
  split
  · exact latch_handed _ _
  · exact h

end Sys2Proof.Safety
end

