-- ==== Sys2Proof/Tests/Slice0.lean ====
section
/-! SUPPORT. Tests: the well-formedness checks, figures of the spec's worked executions, and for each statement with
hypotheses a state and operands that meet them, clause by clause. -/
namespace Sys2Proof.Tests
set_option Elab.async false
open Sys2Proof.Machine Sys2Proof.Safety

/-! ## Well-formedness: a term that each check refuses -/

theorem test_wf_refuses_block_length : (Instr.configBlockRead []).wf = false := by decide
theorem test_wf_refuses_source : (Instr.stopRide 0).wf = false ∧ (Instr.resume 32 5).wf = false := by decide
theorem test_wf_refuses_bytes :
    (Instr.stopZone 1 256).wf = false ∧ (Instr.dispatch 1 256).wf = false ∧ (Instr.unlock 1 256 0).wf = false
      ∧ (Instr.clear 1 256 0 0).wf = false ∧ (Instr.retireImmediate 1 256).wf = false
      ∧ (Instr.retireAtStation 1 256).wf = false ∧ (Instr.retireLift 1 256).wf = false ∧ (Instr.restart 1 256).wf = false
      ∧ (Instr.forget 1 5 256).wf = false ∧ (Instr.query 1 5 256 0).wf = false ∧ (Instr.query 1 5 0 256).wf = false := by
  decide
theorem test_wf_refuses_address : (Instr.peerStale 0).wf = false ∧ (Instr.peerLost 32).wf = false := by decide
theorem test_wf_refuses_positions : (Instr.windowEnd [0, 0, 0, 0, 0]).wf = false := by decide
theorem test_wf_refuses_seat : (Instr.unlockPulseExpiry 0).wf = false ∧ (Instr.unlockPulseExpiry 7).wf = false := by decide
theorem test_wf_refuses_threshold :
    (Instr.durationThreshold .holdLong 0).wf = false ∧ (Instr.durationThreshold .holdLong 5).wf = false
      ∧ (Instr.durationThreshold (.barCreep 7) 1).wf = false := by decide
theorem test_wf_refuses_cue_and_voice : (Instr.watchExpiry 256).wf = false ∧ (Instr.waitExpiry 8).wf = false := by decide
theorem test_wf_refuses_samples :
    (Instr.fetchComplete ⟨0, 0, List.replicate 257 0⟩).wf = false ∧ (Instr.fetchComplete ⟨8, 0, []⟩).wf = false := by decide +kernel
theorem test_wf_takes :
    (Instr.clear 31 0 0x00400002#32 2).wf = true ∧ (Instr.durationThreshold (.barCreep 6) 4).wf = true
      ∧ (Instr.windowEnd [0, 0, 0, 0, 0, 0]).wf = true ∧ (Instr.waitExpiry 7).wf = true := by decide

/-! ## Figures of the spec -/

/-- The CRC-16 of R10 over the bytes of "123456789" is 0x29B1, the published check value of this polynomial and start. -/
theorem test_crc_check_value : crc16 [0x31, 0x32, 0x33, 0x34, 0x35, 0x36, 0x37, 0x38, 0x39] = 0x29B1#16 := by
  decide +kernel

/-- Table 11.8: the bytes of the CLEAR frame before its check word. -/
theorem test_clear_frame :
    (commandFrame (.clear 30 12 0x00400002#32 2)).map (fun f => f.take 8)
      = some [6, 30, 12, 0x00, 0x40, 0x00, 0x02, 0x02] := by decide

/-- Table 6.6: the drive words of window 1 on lines 0 to 2. -/
theorem test_drive_words :
    (List.range 16).map (driveBit Settings.default 0) = [true, true, true, true, true, true, true, false,
        true, false, true, false, true, false, false, true]
      ∧ (List.range 16).map (driveBit Settings.default 1) = [true, false, true, false, false, true, true, false,
        false, true, true, true, false, true, true, true]
      ∧ (List.range 16).map (driveBit Settings.default 2) = [true, true, false, true, true, true, false, true,
        false, false, true, false, true, true, false, false] := by decide

/-- Section 6.9, window 1: seat 2's line A misses one sample, seat 3's line B is welded. -/
theorem test_judgements :
    judgeWindow 0b1101110100101100#16 0b1101110100100100#16 = .mismatch
      ∧ judgeWindow 0b1101110100101100#16 0b1101110100101100#16 = .closed
      ∧ judgeWindow 0b1101110100101100#16 0#16 = .opened
      ∧ readingOf 160 190 .closed .closed = .disagree ∧ readingOf 160 185 .mismatch .opened = .mismatch
      ∧ readingOf 160 160 .closed .opened = .lockedHigh ∧ readingOf 160 159 .closed .opened = .lockedLow := by decide

/-- Table 4.8: Vb of the free distances, and a term of Vs. -/
theorem test_braking_permit :
    brakingPermit 800 2200 = 1876 ∧ brakingPermit 800 2189 = 1871 ∧ brakingPermit 800 2227 = 1887
      ∧ brakingPermit 800 0 = 0 ∧ isqrt 8360000 = 2891 := by decide

/-- Table 4.9: the steering cases. -/
theorem test_steering :
    steerCorrection 48 2000 40 600 = -84 ∧ steerCorrection 32 2000 (-150) 200 = 270 ∧ steerCorrection 5 2000 7 100 = -1
      ∧ steerCorrection 48 2000 40 2000 = 0 ∧ steerCorrection 32 2000 0 900 = 0 := by decide

/-- Table 5.4: the yield braking check. -/
theorem test_yield_speed :
    yieldSpeed 800 1000 7827 = 3305 ∧ yieldSpeed 800 1000 1400 = 800 ∧ yieldSpeed 800 1000 900 = 0 := by decide

/-- Table 2.7: the sequence differences. -/
theorem test_sequence : seqDiff 251 250 = 1 ∧ seqDiff 255 251 = 4 ∧ seqDiff 2 255 = 3 ∧ seqDiff 130 2 = 128 := by decide

/-- Section 3.3, step 1: the advance of 2 and 3 counts at 2000 µm. -/
theorem test_advance : clampAdvance (rawAdvance 2 3 2000) = (5000, []) := by decide

/-- Sections 8.8 and 9.10: the wait to a scene time, and the drift of a looping voice. -/
theorem test_scene_figures :
    sceneReached 43220 46000 = false ∧ sceneWait 43220 46000 = 2780 ∧ sceneWait 43255 46000 = 2745
      ∧ sceneSince 46030 40000 = 6030 ∧ driftOf { address := 0, length := 48000, loops := true } 1300 144720 = 580 := by
  decide

/-- Table 9.6: the single-channel mixes. -/
theorem test_mix : mixOut 5155000 = 32767 ∧ mixOut (-64) = 0 ∧ mixOut (-65) = -1 ∧ mixOut 960000 = 7500 := by decide

/-- Table 1.9: C7 displaces the newest REPORT; a queue of CUE frames alone has none to displace. -/
theorem test_queue :
    (dropReport [.cue 0 1 21 [], .report 30 [], .report 31 []]).map (fun r => (r.1, joinCue (.cue 0 7 21 []) r.2))
        = some (31, [.cue 0 1 21 [], .cue 0 7 21 [], .report 30 []])
      ∧ dropReport [.cue 0 1 21 []] = none := by decide

/-! ## A vehicle on a small loop -/

/-- A loop of 20,000 mm: the station zone 0, a stretch with no zone, zone 2, a stretch with no zone. -/
def road : Route where
  id := 1
  segments :=
    [{ length := 4000, curvature := 0, ceiling := 1500, zone := 0, markers := [{ offset := 1000, code := 10 }] },
     { length := 6000, curvature := 250, ceiling := 2000, zone := 255, markers := [] },
     { length := 5000, curvature := 0, ceiling := 1000, zone := 2, markers := [{ offset := 500, code := 20 }] },
     { length := 5000, curvature := -300, ceiling := 2000, zone := 255, markers := [] }]
  zones := [{ id := 0, capacity := 2, marked := false }, { id := 2, capacity := 1, marked := true }]
  stationZone := 0
  berthDepth := 2000

/-- The body of a SCENE beacon: sequence 7, zone 2, clock 43,200. -/
def sceneBody : List Byte := [1, 7, 2, 0, 0x00, 0xA8, 0xC0]

/-- The body of a VEHICLE beacon: sequence 9, route 1, segment 3, offset 500, no claims. -/
def vehicleBody : List Byte := [0, 9, 4, 1, 3, 0x01, 0xF4, 0, 0, 1, 0, 1, 0, 0, 255, 0, 0, 0]

/-- A filled record received at 900. -/
def peerWith (kind : StationKind) (body : List Byte) : Peer where
  state := .fresh
  kind := kind
  lastSeq := byteAt body 1
  received := 900
  framesLost := 0
  body := body
  routePos := beaconPos (some road) kind body

/-- An OPERATOR at 1, a LOAD at 2, a SCENE at 3, a VEHICLE at 4. -/
def fleet : List (Option Peer) :=
  [some (peerWith .operator [3, 1]), some (peerWith .load [2, 1, 0]), some (peerWith .scene sceneBody),
    some (peerWith .vehicle vehicleBody)] ++ List.replicate 27 none

/-- A seat that has been verified. -/
def verifiedSeat : Seat := { Seat.reset with state := .verified, code := some 200, reference := some 200, verifyRun := 32 }

/-- Vehicle 5, STOPPED at 6,000 mm with its seats verified, its load done, at local time 1000. -/
def base : State :=
  { State.reset with
    now := 1000
    link := { Link.reset with ownAddress := 5, silence := some 900 }
    peers := fleet
    route := some road
    tracker := { Tracker.reset with conf := .good, pos := 6000000, expected := some 20, missIn := 4650000 }
    motion := { Motion.reset with state := .stopped }
    restraint := { Restraint.reset with running := true, seats := List.replicate 6 verifiedSeat }
    loader := { progress := .done, listenExpiry := none, staged := none } }

/-- The vehicle in another motion state. -/
def inState (st : MotionState) : State := { base with motion := { base.motion with state := st } }

/-- The vehicle at the berth, its station zone HELD. -/
def atBerth (m : Motion) : State :=
  { base with
    tracker := { base.tracker with pos := 2000000, expected := some 20, atBerth := true }
    claims := [{ zone := 0, stage := .held, since := none, mark := false }]
    motion := m }

def ready : State := atBerth { Motion.reset with state := .ready }
def parked : State := atBerth { Motion.reset with state := .parked, atStation := true }

/-- A measured speed of 100 mm/s. -/
def atSpeed (s : State) : State := { s with tracker := { s.tracker with history := List.replicate 10 1000 } }

/-- The vehicle during the image load. -/
def loading : State := { State.reset with link := { Link.reset with ownAddress := 5 } }

/-- A condition is latched, its level handed on. -/
def latched (id level : Nat) (s : State) : State :=
  { s with cond := { s.cond with
      records := s.cond.records.modify (id - 1) (fun c => { c with latched := true }), handed := level } }

/-- The vehicle with another link state. -/
def withLink (l : Link) (s : State) : State := { s with link := l }

/-- The fixed conditions of a list of records stand at their defaults. -/
def fixedStand (s : State) : Bool :=
  [2, 8, 9, 10, 11, 12].all fun id =>
    (s.cond.record id).any fun c => c.level == defaultLevels.getD (id - 1) 0 && !c.announceFirst

theorem tablesOk_of (s : State)
    (h : (s.tracker.history.length = 10 ∧ s.restraint.lines.length = 12 ∧ s.restraint.seats.length = 6
      ∧ s.cond.records.length = 25 ∧ s.cond.counters.length = 4 ∧ s.cues.waiting.length ≤ 16
      ∧ s.sound.clips.length = 128 ∧ s.sound.voices.length = 8) ∧ fixedStand s = true) : TablesOk s where
  history := h.1.1
  lines := h.1.2.1
  seats := h.1.2.2.1
  records := h.1.2.2.2.1
  counters := h.1.2.2.2.2.1
  waiting := h.1.2.2.2.2.2.1
  clips := h.1.2.2.2.2.2.2.1
  voices := h.1.2.2.2.2.2.2.2
  fixed := by
    intro id hid
    have hm : id ∈ [2, 8, 9, 10, 11, 12] := by simpa [fixedCondition] using hid
    have hf := List.all_eq_true.mp h.2 id hm
    cases hr : s.cond.record id with
    | none => simp [hr] at hf
    | some c =>
      simp [hr] at hf
      exact ⟨c, rfl, hf.1, hf.2⟩

theorem still_of (s : State) (h : s.motion.notices = [] ∧ judgeStanding s = s ∧ arbitrate s = s) : Still s :=
  ⟨h.1, h.2.1, h.2.2⟩

theorem accepted_of (s : State) (kind : CommandKind) (source target : Nat)
    (h : s.hears = true ∧ 1 ≤ source ∧ source ≤ 31 ∧ targetTaken kind s.link.ownAddress target = true
      ∧ authority kind source s = none) : Accepted s kind source target :=
  ⟨h.1, h.2.1, h.2.2.1, h.2.2.2.1, h.2.2.2.2⟩

/-! ## Witnesses: steps, invariants, start-up -/

theorem test_witness_step :
    (base.withCommand .carrierOn).pending = .carrierOn :: base.pending ∧ base.pending = [] := by decide

theorem test_witness_kept :
    let s := base.withCommand .gapMet
    (LinkOk s ∧ ClaimsOk s ∧ PeersOk s ∧ TablesOk s ∧ Still s ∧ LevelOk s) ∧ ∃ t, step s = .next t :=
  ⟨⟨⟨by decide, by decide, by decide, by decide, by unfold cuesFirst; decide, by decide, by decide,
      fun _ h => absurd h (by simp [State.withCommand, base])⟩,
    ⟨by decide, by decide, fun h => absurd h (by decide)⟩,
    ⟨by decide, fun h => absurd h (by decide), by decide⟩,
    tablesOk_of _ (by decide +kernel), still_of _ (by decide +kernel), ⟨by decide +kernel, (by decide +kernel : (base.withCommand .gapMet).level ≤ 6)⟩⟩, _, rfl⟩

theorem test_witness_fullReset :
    let s := { State.reset with resetHeld := true, driveFaultIn := true, localStopIn := true }
    let q := { State.reset with resetHeld := true }
    (s.resetHeld = true ∧ TablesOk s ∧ s.driveFaultIn = true ∧ s.localStopIn = true)
      ∧ (q.loader.progress = .loading ∧ q.driveFaultIn = false ∧ q.localStopIn = false ∧ Still q)
      ∧ State.reset.resetHeld = false :=
  ⟨⟨rfl, tablesOk_of _ (by decide +kernel), rfl, rfl⟩, ⟨rfl, rfl, rfl, still_of _ (by decide +kernel)⟩, rfl⟩

theorem test_witness_restart :
    (∀ s ∈ [parked, base, inState .estop, inState .fault], Accepted s .restart 1 5 ∧ Still s ∧ s.speed = 0)
      ∧ (Accepted (atSpeed (inState .running)) .restart 1 5 ∧ Still (atSpeed (inState .running))
        ∧ 0 < (atSpeed (inState .running)).speed)
      ∧ ∀ s ∈ [inState .start, ready, inState .running, inState .holding, inState .stopping],
        Accepted s .restart 1 5 ∧ Still s ∧ s.speed = 0 := by
  refine ⟨?_, ⟨accepted_of _ _ _ _ (by decide +kernel), still_of _ (by decide +kernel), by decide⟩, ?_⟩
  · simp only [List.mem_cons, List.not_mem_nil, or_false]
    intro s hs
    refine ⟨accepted_of _ _ _ _ ?_, still_of _ ?_, ?_⟩ <;> (rcases hs with h | h | h | h <;> subst h <;> decide +kernel)
  · simp only [List.mem_cons, List.not_mem_nil, or_false]
    intro s hs
    refine ⟨accepted_of _ _ _ _ ?_, still_of _ ?_, ?_⟩ <;>
      (rcases hs with h | h | h | h | h <;> subst h <;> decide +kernel)

/-- A configuration block before its check word: this address and stale time, every other value not given. -/
def blockBody (address stale : Nat) : List Byte :=
  bytes2 address ++ List.replicate 8 0xFF#8 ++ bytes2 stale ++ List.replicate 242 0xFF#8

/-- The block with its check word. -/
def blockOf (address stale : Nat) : List Byte := blockBody address stale ++ bytes2 (crc16 (blockBody address stale)).toNat

theorem test_config_block_passes (address stale : Nat) : blockPasses (blockOf address stale) = true := by
  have h := Laws.checkWord_append (blockBody address stale)
  have l : (blockBody address stale).length = 254 := by
    simp only [blockBody, List.length_append, List.length_replicate, Laws.bytes2_length]
  rw [l] at h
  simp only [blockPasses, Bool.and_eq_true, decide_eq_true_eq]
  exact ⟨by simp only [blockOf, List.length_append, l, Laws.bytes2_length], h⟩

/-- Table 10.3: a stale time of 40 is clamped to 60. -/
theorem test_config_block_values :
    (takeBlock (blockOf 12 40)).value.settings.staleTime = 60 ∧ (takeBlock (blockOf 12 40)).clamped = true
      ∧ (takeBlock (blockOf 12 40)).value.address = 12 ∧ (takeBlock (blockOf 12 100)).clamped = false
      ∧ (takeBlock (blockOf 0 100)).value.address = 0 := by decide +kernel

theorem test_witness_configBlock :
    (∀ s ∈ [State.reset, loading], s.loader.progress = .loading ∧ s.resetHeld = false ∧ s.loader.staged = none
        ∧ TablesOk s)
      ∧ State.reset.link.ownAddress = 0 ∧ loading.link.ownAddress ≠ 0 ∧ blockPasses [] = false
      ∧ (State.reset.motion.state = .start ∧ Still State.reset ∧ State.reset.cues.table = [])
      ∧ blockPasses (blockOf 12 40) = true ∧ blockPasses (blockOf 0 100) = true := by
  refine ⟨?_, by decide, by decide, by decide, ⟨rfl, ⟨rfl, rfl, rfl⟩, rfl⟩, test_config_block_passes _ _, test_config_block_passes _ _⟩
  simp only [List.mem_cons, List.not_mem_nil, or_false]
  intro s hs
  refine ⟨?_, ?_, ?_, tablesOk_of _ ?_⟩ <;> (rcases hs with h | h <;> subst h <;> decide +kernel)

/-- An image before its integrity word: two segments of zones 0 and 255 with one marker, no cues and no clips; its route
id as given. -/
def imageBody (id : Nat) : List Byte :=
  [byteOf id, 0, 0, 2, 0, 1, 0, 0] ++ bytes2 2000 ++ List.replicate 6 0
    ++ (bytes2 8000 ++ bytes2 0 ++ bytes2 2000 ++ [0, 1] ++ bytes2 1000 ++ bytes2 101 ++ List.replicate 12 0)
    ++ (bytes2 9000 ++ bytes2 0 ++ bytes2 2000 ++ [255, 0] ++ List.replicate 16 0)
    ++ [0, 2, 0, 0] ++ List.replicate 1024 0

/-- The image with its integrity word. -/
def imageOf (id : Nat) : List Byte := imageBody id ++ bytes2 (crc16 (imageBody id)).toNat

/-- Section 11.3: the records of the image as the part takes them; a route id of 16 is clamped. -/
theorem test_image_route :
    (takeRoute (imageOf 1)).value.len = 17000 ∧ (takeRoute (imageOf 1)).value.markerPos 101 = some 1000
      ∧ (takeRoute (imageOf 1)).clamped = false ∧ (takeRoute (imageOf 16)).value.id = 15
      ∧ (takeRoute (imageOf 16)).clamped = true := by decide +kernel

theorem test_image_passes (id : Nat) (h : imageWordAt (imageOf id) = 1092 ∧ imageSegments (imageOf id) = 2
    ∧ routePasses (rawRoute (imageOf id)) 3000 = true) : imagePasses (imageOf id) 3000 = true := by
  have w := Laws.checkWord_append (imageBody id)
  have l : (imageBody id).length = 1092 := by
    simp only [imageBody, List.length_append, List.length_replicate, Laws.bytes2_length, List.length_cons, List.length_nil]
  rw [l] at w
  simp only [imagePasses, Bool.and_eq_true, decide_eq_true_eq, h.1, h.2.1]
  exact ⟨⟨⟨⟨by simp only [imageOf, List.length_append, l, Laws.bytes2_length], w⟩, by decide⟩, by decide⟩, h.2.2⟩

/-- The part during the load with a block taken. -/
def staged : State :=
  { loading with loader := { loading.loader with staged := some (takeBlock (blockOf 12 40)).value } }

theorem test_witness_image :
    (staged.loader.staged = some (takeBlock (blockOf 12 40)).value
        ∧ (takeBlock (blockOf 12 40)).value.settings.bodyLength = 3000
        ∧ imagePasses (imageOf 1) 3000 = true ∧ imagePasses (imageOf 16) 3000 = true ∧ imagePasses [] 3000 = false
        ∧ (takeBlock (blockOf 12 40)).value.address ≠ 0)
      ∧ staged.loader.progress = .loading ∧ staged.resetHeld = false ∧ staged.motion.state = .start ∧ Still staged
      ∧ TablesOk staged :=
  ⟨⟨rfl, by decide +kernel, test_image_passes _ (by decide +kernel), test_image_passes _ (by decide +kernel),
    by decide +kernel, by decide +kernel⟩, rfl, rfl, rfl, ⟨rfl, rfl, rfl⟩, tablesOk_of _ (by decide +kernel)⟩

/-- A block that gives condition 6 two announcements of clip 0, chains counter 2 and gives counter 3 limit 1. -/
def valuesBlock : List Byte :=
  (((((blockBody 12 40).set 80 130#8).set 81 0#8).set 158 2#8).set 172 0#8).set 173 1#8

theorem test_witness_values :
    (let q := (takeCondition valuesBlock [some { address := 0, length := 1, loops := false }] 6).value;
      q = { level := 4, announceFirst := true, count := 2, clip := some 0 } ∧ fixedCondition 6 = false
        ∧ (Condition.default 4).announceFirst ≠ q.announceFirst)
      ∧ (takeCondition valuesBlock [] 7).value.announceFirst = false ∧ fixedCondition 2 = true
      ∧ levelByte valuesBlock 6 = none ∧ levelByte (valuesBlock.set 79 9#8) 6 = some 9
      ∧ (takeCondition (valuesBlock.set 79 9#8) [] 6).value.level = 7
      ∧ (takeCounter valuesBlock 2).value.chained = true ∧ (takeCounter valuesBlock 1).value.chained = false
      ∧ Counter.default.chained = false ∧ { Counter.default with chained := true }.chained = true
      ∧ (let q := (takeCounter valuesBlock 3).value;
        q.limit ≤ min q.limit (max q.preset 1) ∧ q.limit ≤ max q.preset 1 ∧ Counter.default.tripped = false)
      ∧ given16 valuesBlock (counterOffset 3 + 8) = some 1 ∧ given16 valuesBlock (counterOffset 1 + 8) = none := by
  decide +kernel

/-- The vehicle at the end of its listen period. -/
def listening : State :=
  { inState .start with loader := { progress := .listening, listenExpiry := some 1000, staged := none } }

theorem test_witness_listen :
    (∀ s ∈ [listening, latched 9 7 listening,
        { listening with tracker := { listening.tracker with conf := .unfixed } },
        { listening with tracker := { listening.tracker with atBerth := true } }],
      s.loader.progress = .listening ∧ s.loader.listenExpiry = some 1000 ∧ 1000 ≤ s.now ∧ s.resetHeld = false
        ∧ s.motion.state = .start ∧ Still s ∧ TablesOk s)
      ∧ 7 ≤ (latched 9 7 listening).level := by
  refine ⟨?_, by decide +kernel⟩
  simp only [List.mem_cons, List.not_mem_nil, or_false]
  intro s hs
  refine ⟨?_, ?_, ?_, ?_, ?_, still_of _ ?_, tablesOk_of _ ?_⟩ <;>
    (rcases hs with h | h | h | h <;> subst h <;> decide +kernel)

/-! ## Witnesses: link -/

/-- A CUE and a REPORT as they wait in the transmit queue. -/
def waitingCueFrame : QueuedFrame := .cue 900 7 3 [5, 44]
def waitingReport : QueuedFrame := .report 1 [4, 0, 1]

/-- The vehicle with this access state and transmit queue. -/
def onLink (access : AccessState) (queue : List QueuedFrame) : State :=
  withLink { base.link with access := access, queue := queue } base

theorem test_witness_channelAccess :
    (∀ a ∈ [AccessState.countdown, .idle, .gap], (onLink a []).link.carrier = false)
      ∧ (onLink .countdown []).link.access = .countdown ∧ (onLink .idle []).link.access ≠ .countdown
      ∧ (onLink .gap []).link.access = .gap ∧ (onLink .idle []).link.access ≠ .gap
      ∧ ((onLink .sending [waitingReport]).link.access = .sending ∧ (onLink .sending [waitingReport]).contends = true
        ∧ (onLink .sending [waitingReport]).link.wantsToSend = true)
      ∧ (onLink .sending []).link.access = .sending ∧ (onLink .sending []).link.wantsToSend = false := by decide +kernel

theorem test_witness_countdownEnds :
    (let s := withLink { base.link with access := .countdown, beaconDue := some 950 } base;
      s.link.access = .countdown ∧ s.link.beaconDue.isSome = true ∧ s.placed = some (road, 6000))
      ∧ (let s := withLink { base.link with access := .countdown, beaconDue := some 950 }
          { base with tracker := { base.tracker with conf := .unfixed } };
        s.link.access = .countdown ∧ s.link.beaconDue.isSome = true ∧ s.placed = none)
      ∧ ((onLink .countdown [waitingCueFrame]).link.beaconDue = none
        ∧ (onLink .countdown [waitingCueFrame]).link.queue = .cue 900 7 3 [5, 44] :: [])
      ∧ ((onLink .countdown [waitingReport]).link.queue = .report 1 [4, 0, 1] :: []
        ∧ Still (onLink .countdown [waitingReport]))
      ∧ (onLink .countdown []).link.queue = [] ∧ Still (onLink .countdown []) :=
  ⟨by decide +kernel, by decide +kernel, by decide, ⟨rfl, still_of _ (by decide +kernel)⟩, rfl,
    still_of _ (by decide +kernel)⟩

theorem test_witness_beaconTimer :
    ∀ due ∈ [none, some 990], ∀ access ∈ [AccessState.idle, .gap], ∀ quiet ∈ [true, false],
      ∀ st ∈ [MotionState.stopped, .start],
      let s := withLink { base.link with beaconTimer := some 1000, beaconDue := due, access := access, quiet := quiet }
        (inState st)
      s.link.beaconTimer = some 1000 ∧ 1000 ≤ s.now ∧ s.link.beaconDue = due ∧ s.link.access = access
        ∧ (s.link.quiet && !s.link.carrier) = quiet ∧ s.contends = (st == .stopped) := by decide +kernel

theorem test_witness_cueLateness :
    (∀ a ∈ [AccessState.gap, .idle], ∀ after ∈ [[], [waitingReport]],
      let s := onLink a (waitingCueFrame :: after)
      s.link.queue = [] ++ .cue 900 7 3 [5, 44] :: after ∧ 900 + s.settings.cueLateness ≤ s.now ∧ s.link.access = a
        ∧ s.link.beaconDue = none)
      ∧ (let s := onLink .idle [.cue 901 6 3 [5, 44], waitingCueFrame];
        s.link.queue = [.cue 901 6 3 [5, 44]] ++ .cue 900 7 3 [5, 44] :: [] ∧ s.now < 901 + s.settings.cueLateness)
      ∧ TablesOk (onLink .gap [waitingCueFrame]) :=
  ⟨by decide +kernel, by decide, tablesOk_of _ (by decide +kernel)⟩

theorem test_witness_linkTimers :
    (let s := withLink { base.link with silence := some 500 } base;
      s.link.silence = some 500 ∧ s.settings.silenceTime ≤ s.now - 500 ∧ TablesOk s)
      ∧ (let s := withLink { base.link with ownHeard := some 0 } { base with now := 2001 };
        s.link.ownHeard = some 0 ∧ 2000 < s.now - 0) :=
  ⟨⟨rfl, by decide, tablesOk_of _ (by decide +kernel)⟩, by decide⟩

/-- A frame of a CUE, of a REPORT without contents, and beacons. -/
def cueFrame : List Byte := frameOf 1 3 5 [1, 2]
def reportFrame : List Byte := frameOf 10 1 5 [4, 0, 1]
def ownFrame : List Byte := frameOf 0 5 0 [3, 1]
def vehicleFrame (seq : Byte) : List Byte := frameOf 0 4 0 (vehicleBody.set 1 seq)

theorem test_frames :
    (checkFrame cueFrame).map Frame.kind = some 1 ∧ (checkFrame reportFrame).map Frame.kind = some 10
      ∧ (checkFrame ownFrame).map (fun f => (f.kind, f.source)) = some (0, 5)
      ∧ (checkFrame (vehicleFrame 12)).map (fun f => (f.kind, f.source, byteAt f.body 1)) = some (0, 4, 12)
      ∧ checkFrame [] = none ∧ checkFrame (cueFrame.set 3 0) = none := by decide +kernel

theorem test_witness_frames :
    ((onLink .sending []).hears = false ∧ Still (onLink .sending []))
      ∧ (base.hears = true ∧ Still base ∧ TablesOk base)
      ∧ base.link.ownAddress = 5 :=
  ⟨⟨by decide, still_of _ (by decide +kernel)⟩, ⟨by decide, still_of _ (by decide +kernel), tablesOk_of _ (by decide +kernel)⟩,
    rfl⟩

theorem test_witness_beacon :
    (stationKindOf (byteAt (vehicleBody.set 1 9) 0) = some .vehicle ∧ base.peer 4 = some (peerWith .vehicle vehicleBody)
        ∧ seqDiff 9 (peerWith .vehicle vehicleBody).lastSeq = 0)
      ∧ seqDiff 12 (peerWith .vehicle vehicleBody).lastSeq = 3 ∧ base.peer 6 = none
      ∧ base.peer 3 = some (peerWith .scene sceneBody)
      ∧ PeersOk base ∧ Still base :=
  ⟨by decide +kernel, by decide, by decide, by decide +kernel, ⟨by decide, fun h => absurd h (by decide), by decide⟩,
    still_of _ (by decide +kernel)⟩

theorem test_witness_commandFrames :
    ∀ c ∈ [Instr.stopRide 2, .stopZone 2 0, .resume 1 5, .dispatch 2 5, .unlock 2 5 63, .clear 30 12 0x00400002#32 2,
      .retireImmediate 1 0, .retireAtStation 1 5, .retireLift 1 5, .forget 1 0 4, .query 1 5 255 0, .restart 31 255],
      c.wf = true ∧ (commandFrame c).isSome = true := by decide +kernel

theorem test_witness_turnedAway :
    commandHeader (.dispatch 1 5) = some (.dispatch, 1, 5)
      ∧ (onLink .sending []).hears = false ∧ base.hears = true
      ∧ targetTaken .dispatch base.link.ownAddress 0 = false ∧ targetTaken .dispatch base.link.ownAddress 5 = true
      ∧ base.peer 9 = none ∧ base.peer 1 = some (peerWith .operator [3, 1])
      ∧ mayCommand .dispatch (peerWith .operator [3, 1]).kind = false
      ∧ Still base ∧ Still (onLink .sending []) :=
  ⟨by decide, by decide, by decide, by decide, by decide, by decide, by decide, by decide,
    still_of _ (by decide +kernel), still_of _ (by decide +kernel)⟩

/-! ## Witnesses: commands -/

theorem test_witness_stop :
    Accepted parked .stop 2 0 ∧ TablesOk parked ∧ (∃ c ∈ parked.claims, c.zone = 0) ∧ (∀ c ∈ parked.claims, c.zone ≠ 2)
      ∧ Still parked :=
  ⟨accepted_of _ _ _ _ (by decide +kernel), tablesOk_of _ (by decide +kernel), by decide, by decide,
    still_of _ (by decide +kernel)⟩

/-- A state of each clause of RESUME, in the order of its checks. -/
def resumeCases : List State :=
  [inState .running, latched 11 6 base, { base with restraint := { base.restraint with seats := List.replicate 6 Seat.reset } },
    { base with tracker := { base.tracker with conf := .lost } }, { base with motion := { base.motion with immediate := true } },
    base]

theorem test_witness_resume :
    (∀ s ∈ resumeCases, Accepted s .resume 1 5 ∧ Still s)
      ∧ resumeCases.map resumeRefusal
        = [some .wrongState, some .levelTooHigh, some .notVerified, some .positionNotGood, some .retired, none]
      ∧ base.settings.resumeClip = none ∧ noMotionCue base .running := by
  refine ⟨?_, by decide +kernel, rfl, by unfold noMotionCue; decide +kernel⟩
  simp only [resumeCases, List.mem_cons, List.not_mem_nil, or_false]
  intro s hs
  refine ⟨accepted_of _ _ _ _ ?_, still_of _ ?_⟩ <;>
    (rcases hs with h | h | h | h | h | h <;> subst h <;> decide +kernel)

theorem test_witness_dispatch :
    (Accepted ready .dispatch 2 5 ∧ Still ready ∧ ready.motion.state = .ready ∧ noMotionCue ready .running)
      ∧ Accepted base .dispatch 2 5 ∧ Still base ∧ base.motion.state ≠ .ready :=
  ⟨⟨accepted_of _ _ _ _ (by decide +kernel), still_of _ (by decide +kernel), rfl, by unfold noMotionCue; decide +kernel⟩,
    accepted_of _ _ _ _ (by decide +kernel), still_of _ (by decide +kernel), by decide⟩

/-- A state of each clause of UNLOCK, in the order of its checks. -/
def unlockCases : List State :=
  [base, atSpeed parked, { parked with tracker := { parked.tracker with pos := 6000000 } }, parked]

theorem test_witness_unlock :
    (∀ s ∈ unlockCases, Accepted s .unlock 2 5 ∧ Still s)
      ∧ unlockCases.map unlockRefusal = [some .wrongState, some .moving, some .notAtStation, none]
      ∧ parked.restraint.seats.length = 6 := by
  refine ⟨?_, by decide +kernel, rfl⟩
  simp only [unlockCases, List.mem_cons, List.not_mem_nil, or_false]
  intro s hs
  refine ⟨accepted_of _ _ _ _ ?_, still_of _ ?_⟩ <;> (rcases hs with h | h | h | h <;> subst h <;> decide +kernel)

theorem test_witness_clear :
    (let s := { latched 9 7 (inState .estop) with driveFaultIn := true };
      Accepted s .clear 1 5 ∧ TablesOk s ∧ (0x200#32).getLsbD 9 = true ∧ (received s).cause 9 = true)
      ∧ Accepted base .clear 1 0 ∧ TablesOk base
      ∧ (received (withLink { base.link with silent := true } base)).cause 3 = false
      ∧ ∀ id, 1 ≤ id → id ≤ 25 → (0x00408002#32).getLsbD id = true → id = 15 ∨ (received base).cause id = false := by
  refine ⟨⟨accepted_of _ _ _ _ (by decide +kernel), tablesOk_of _ (by decide +kernel), by decide, by decide⟩,
    accepted_of _ _ _ _ (by decide +kernel), tablesOk_of _ (by decide +kernel), by decide, ?_⟩
  intro id h1 h2
  have h : ∀ i ∈ List.range 26, (0x00408002#32).getLsbD i = true → i = 15 ∨ (received base).cause i = false := by
    decide +kernel
  exact h id (List.mem_range.mpr (by omega))

theorem test_witness_retire :
    (∀ s ∈ [{ base with motion := { base.motion with immediate := true } }, inState .start, inState .fault, parked,
        inState .stopping, base, inState .estop, ready, inState .running, inState .holding],
      Accepted s .retire 1 5 ∧ Accepted s .retire 1 0 ∧ Still s)
      ∧ ready.motion.immediate = false ∧ ready.motion.state = .ready ∧ parked.motion.state = .parked := by
  refine ⟨?_, rfl, rfl, rfl⟩
  simp only [List.mem_cons, List.not_mem_nil, or_false]
  intro s hs
  refine ⟨accepted_of _ _ _ _ ?_, accepted_of _ _ _ _ ?_, still_of _ ?_⟩ <;>
    (rcases hs with h | h | h | h | h | h | h | h | h | h <;> subst h <;> decide +kernel)

/-- A cue that waits for scene 3's clock, and one that does not. -/
def sceneCue : CueEntry where
  trigger := .sceneTime 3 46000
  delay := 0
  gate := 3
  every := false
  showEffect := true
  action := .linkCue 3 6
  enabled := true
  fired := false
  watching := true
  watchExpiry := some 1000

def zoneCue : CueEntry := { sceneCue with trigger := .zoneEnter 2, watching := false, watchExpiry := none }

/-- The vehicle with these two cues. -/
def withCues : State := { base with cues := { table := [sceneCue, zoneCue], waiting := [] } }

theorem test_witness_forget :
    Accepted withCues .forget 1 0 ∧ Still withCues ∧ withCues.link.ownAddress = 5 ∧ withCues.peer 9 = none
      ∧ withCues.peer 4 = some (peerWith .vehicle vehicleBody) ∧ withCues.peer 3 = some (peerWith .scene sceneBody)
      ∧ withCues.cues.table[0]? = some sceneCue ∧ sceneCue.trigger = .sceneTime 3 46000
      ∧ (∀ t, zoneCue.trigger ≠ .sceneTime 3 t) :=
  ⟨accepted_of _ _ _ _ (by decide +kernel), still_of _ (by decide +kernel), rfl, by decide, by decide, by decide, rfl, rfl,
    fun _ h => by cases h⟩

theorem test_witness_query :
    (Accepted (inState .start) .query 1 5 ∧ Still (inState .start))
      ∧ (let s := onLink .idle (List.replicate 8 waitingReport);
        Accepted s .query 1 5 ∧ Still s ∧ s.motion.state ≠ .start ∧ 8 ≤ s.link.queue.length)
      ∧ (let s := onLink .idle (List.replicate 7 waitingReport);
        Accepted s .query 1 5 ∧ Still s ∧ s.motion.state ≠ .start ∧ s.link.queue.length < 8)
      ∧ (onLink .gap []).link.access ≠ .idle :=
  ⟨⟨accepted_of _ _ _ _ (by decide +kernel), still_of _ (by decide +kernel)⟩,
    ⟨accepted_of _ _ _ _ (by decide +kernel), still_of _ (by decide +kernel), by decide, by decide⟩,
    ⟨accepted_of _ _ _ _ (by decide +kernel), still_of _ (by decide +kernel), by decide, by decide⟩, by decide⟩

/-! ## Witnesses: peers and position -/

/-- The vehicle at a later time, with the record of an address in another state. -/
def later (now a : Nat) (kind : StationKind) (body : List Byte) (st : PeerState) : State :=
  { base with now := now, peers := base.peers.set (a - 1) (some { peerWith kind body with state := st }) }

theorem test_witness_peersAge :
    (let s := later 1051 2 .load [2, 1, 0] .fresh;
      s.peer 2 = some (peerWith .load [2, 1, 0]) ∧ s.settings.staleTime < s.ageOf (peerWith .load [2, 1, 0])
        ∧ s.settings.staleTime < s.settings.lostTime ∧ Still s)
      ∧ (let s := later 1051 3 .scene sceneBody .fresh;
        s.peer 3 = some (peerWith .scene sceneBody) ∧ s.settings.staleTime < s.ageOf (peerWith .scene sceneBody) ∧ Still s)
      ∧ (let s := { later 1901 4 .vehicle vehicleBody .fresh with
            settings := { Settings.default with staleTime := 1000, lostTime := 300 } };
        s.peer 4 = some (peerWith .vehicle vehicleBody) ∧ s.settings.staleTime < s.ageOf (peerWith .vehicle vehicleBody)
          ∧ s.settings.lostTime ≤ s.settings.staleTime ∧ TablesOk s)
      ∧ (let s := later 1901 2 .load [2, 1, 0] .stale;
        (s.peer 2).map Peer.state = some .stale ∧ s.settings.lostTime < s.ageOf (peerWith .load [2, 1, 0]) ∧ Still s)
      ∧ (let s := later 1901 4 .vehicle vehicleBody .stale;
        (s.peer 4).map Peer.state = some .stale ∧ s.settings.lostTime < s.ageOf (peerWith .vehicle vehicleBody)
          ∧ TablesOk s) :=
  ⟨⟨by decide +kernel, by decide, by decide, still_of _ (by decide +kernel)⟩,
    ⟨by decide +kernel, by decide, still_of _ (by decide +kernel)⟩,
    ⟨by decide +kernel, by decide, by decide, tablesOk_of _ (by decide +kernel)⟩,
    ⟨by decide +kernel, by decide, still_of _ (by decide +kernel)⟩,
    ⟨by decide +kernel, by decide, tablesOk_of _ (by decide +kernel)⟩⟩

theorem test_witness_odometry :
    (State.reset.loading = true ∧ Still State.reset) ∧ (base.loading = false ∧ TablesOk base)
      ∧ (base.tracker.conf ≠ .unfixed ∧ base.route = some road)
      ∧ rawAdvance ((100#16 - base.tracker.odoL).toInt) ((20#16 - base.tracker.odoR).toInt) base.settings.odoScale = 60000
      ∧ 60000 < rawAdvance ((100#16 - base.tracker.odoL).toInt) ((21#16 - base.tracker.odoR).toInt) base.settings.odoScale
      ∧ rawAdvance ((0#16 - 1#16).toInt) 0 base.settings.odoScale < 0
      ∧ { base with tracker := { base.tracker with conf := .unfixed } }.tracker.conf = .unfixed :=
  ⟨⟨by decide, still_of _ (by decide +kernel)⟩, ⟨by decide, tablesOk_of _ (by decide +kernel)⟩, ⟨by decide, rfl⟩,
    by decide, by decide, by decide, rfl⟩

/-- Misses and berth rules: an expected marker not yet missed, missed for the first time, for the third time; a move that
crosses the station entry, and one that does not; an arrival. -/
theorem test_witness_advance :
    (base.tracker.conf = .good ∧ base.tracker.expected = some 20 ∧ 60000 ≤ base.tracker.missIn)
      ∧ (let t := { base.tracker with missIn := 59999 };
        t.missIn < 60000 ∧ t.misses < 2 ∧ road.markerAfter 20 = some 10 ∧ 60000 ≤ t.missIn + road.markerGap 20 10
          ∧ 2 ≤ { t with misses := 2 }.misses)
      ∧ { base.tracker with conf := .lost }.conf = .lost
      ∧ (let entry := 1000 * (road.entry road.stationZone).getD 0;
        (road.entry road.stationZone).isSome = true ∧ ahead (1000 * road.len) 19990000 entry = 10000
          ∧ 60000 < ahead (1000 * road.len) 6000000 entry)
      ∧ base.tracker.armed = false ∧ { base.tracker with armed := true }.armed = true
      ∧ arrives road 20 0 { base.tracker with armed := true, pos := 1990000 } = true
      ∧ base.placed = some (road, 6000) := by decide +kernel

theorem test_witness_markers :
    (State.reset.loading = true ∧ Still State.reset ∧ (inState .fault).motion.state = .fault ∧ Still (inState .fault)
        ∧ Still base)
      ∧ (base.loading = false ∧ base.motion.state ≠ .fault ∧ base.route = some road ∧ road.markerPos 11 = none
        ∧ road.markerPos 10 = some 1000 ∧ 1000 * 1000 < 1000 * road.len ∧ base.tracker.pos < 1000 * road.len)
      ∧ (∀ c ∈ [Confidence.unfixed, .lost],
        let s := { base with tracker := { base.tracker with conf := c } }
        s.loading = false ∧ s.tracker.conf = c ∧ s.route = some road)
      ∧ (base.tracker.conf = .good ∧ base.tracker.expected = some (20#12).toNat ∧ base.tracker.expected ≠ some (10#12).toNat
        ∧ road.markerPos (20#12).toNat = some 10500 ∧ TablesOk base)
      ∧ 150000 < ahead (1000 * road.len) (1000 * 10500) base.tracker.pos
      ∧ 150000 < ahead (1000 * road.len) base.tracker.pos (1000 * 10500)
      ∧ (0 < ahead (1000 * road.len) (1000 * 10500) 10600000 ∧ ahead (1000 * road.len) (1000 * 10500) 10600000 ≤ 150000
        ∧ road.zoneAt 10500 ≠ road.stationZone)
      ∧ (road.zoneAt 1000 = road.stationZone ∧ road.depth (1000 * 1000) / 1000 + 20 < road.berthDepth
        ∧ { road with berthDepth := 1000 }.inBand 20 (1000 * 1000) = true ∧ base.tracker.armed = false
        ∧ base.claims = [] ∧ { road with zones := [] }.capacity 0 ≤ 0) :=
  ⟨⟨by decide, still_of _ (by decide +kernel), rfl, still_of _ (by decide +kernel), still_of _ (by decide +kernel)⟩,
    by decide +kernel, by decide +kernel, ⟨rfl, by decide, by decide, by decide +kernel, tablesOk_of _ (by decide +kernel)⟩,
    by decide, by decide, by decide, by decide +kernel⟩

/-! ## Witnesses: motion, claims -/

/-- The vehicle under way at this D_prev. -/
def running (dPrev : Nat) : State := { base with motion := { base.motion with state := .running, dPrev := dPrev } }

/-- The vehicle without verified seats. -/
def unverified (s : State) : State := { s with restraint := { s.restraint with seats := List.replicate 6 Seat.reset } }

theorem test_permit : permitOf base = { vb := 2190, vs := 2000, vc := 2000 } ∧ curvatureDemand base = (250, false) := by
  decide +kernel

theorem test_witness_steering :
    base.placed = some (road, 6000) ∧ base.motion.state ≠ .start ∧ base.motion.state ≠ .fault := by decide +kernel

theorem test_witness_running :
    (let s := atSpeed (running 100);
      s.resetHeld = false ∧ (curvatureDemand s).2 = false ∧ Still s ∧ s.motion.state = .running
        ∧ s.motion.dPrev ≤ min (permitOf s).vb (permitOf s).vs + 2 * ((s.settings.decel + 99) / 100) ∧ 0 < s.speed)
      ∧ (let s := unverified (running 0);
        (curvatureDemand s).2 = false ∧ Still s ∧ s.motion.state = .running ∧ s.speed = 0 ∧ s.summary ≠ .allVerified)
      ∧ (let s := inState .holding;
        (curvatureDemand s).2 = false ∧ Still s ∧ s.motion.state = .holding ∧ 0 < (permitOf s).vc
          ∧ 0 < min (permitOf s).vc (s.motion.dPrev + s.settings.accel / 100) ∧ s.summary = .allVerified)
      ∧ (let s := unverified (inState .holding);
        (curvatureDemand s).2 = false ∧ Still s ∧ s.motion.state = .holding ∧ 0 < (permitOf s).vc ∧ s.speed = 0
          ∧ s.motion.dPrev = 0 ∧ s.summary ≠ .allVerified) :=
  ⟨⟨rfl, by decide +kernel, still_of _ (by decide +kernel), rfl, by decide +kernel, by decide +kernel⟩,
    ⟨by decide +kernel, still_of _ (by decide +kernel), rfl, by decide +kernel, by decide +kernel⟩,
    ⟨by decide +kernel, still_of _ (by decide +kernel), rfl, by decide +kernel, by decide +kernel, by decide +kernel⟩,
    ⟨by decide +kernel, still_of _ (by decide +kernel), rfl, by decide +kernel, by decide +kernel, by decide +kernel,
      by decide +kernel⟩⟩

/-- The vehicle with a curvature limit below the curvature of its segment. -/
def clamped (s : State) : State := { s with settings := { s.settings with curvatureLimit := 100 } }

theorem test_witness_clamped :
    (∀ s ∈ [clamped (atSpeed (running 100)), clamped (unverified (running 0)), clamped (inState .holding),
        clamped (atSpeed (inState .stopping)), clamped (inState .stopping), clamped base, clamped (inState .estop),
        clamped (unverified (inState .holding))],
      s.resetHeld = false ∧ (curvatureDemand s).2 = true ∧ Still s)
      ∧ rawCurvature base = some 250 ∧ rawCurvature (inState .start) = none
      ∧ (∀ s ∈ [clamped (atSpeed (running 100)), clamped (unverified (running 0))],
        s.motion.dPrev ≤ min (permitOf s).vb (permitOf s).vs + 2 * ((s.settings.decel + 99) / 100))
      ∧ 0 < (permitOf (clamped (inState .holding))).vc ∧ 0 < (permitOf (clamped (unverified (inState .holding)))).vc := by
  refine ⟨?_, by decide +kernel, by decide +kernel, by decide +kernel, by decide +kernel⟩
  simp only [List.mem_cons, List.not_mem_nil, or_false]
  intro s hs
  refine ⟨?_, ?_, still_of _ ?_⟩ <;> (rcases hs with h | h | h | h | h | h | h | h <;> subst h <;> decide +kernel)

theorem test_witness_restDemand :
    (∀ s ∈ [atSpeed (inState .stopping), inState .stopping, inState .start, inState .fault, parked, ready, base,
        latched 11 6 (inState .holding), latched 9 7 (inState .estop), atSpeed (inState .estop), inState .estop],
      s.resetHeld = false ∧ (curvatureDemand s).2 = false ∧ Still s)
      ∧ (0 < (atSpeed (inState .stopping)).speed ∧ (inState .stopping).speed = 0)
      ∧ (permitOf (latched 11 6 (inState .holding))).vc = 0 ∧ 7 ≤ (latched 9 7 (inState .estop)).level
      ∧ 0 < (atSpeed (inState .estop)).speed ∧ (inState .estop).level ≤ 6 ∧ (inState .estop).speed = 0 := by
  refine ⟨?_, by decide +kernel⟩
  simp only [List.mem_cons, List.not_mem_nil, or_false]
  intro s hs
  refine ⟨?_, ?_, still_of _ ?_⟩ <;>
    (rcases hs with h | h | h | h | h | h | h | h | h | h | h <;> subst h <;> decide +kernel)

theorem test_witness_permitDrop :
    let s := running 3000
    s.resetHeld = false ∧ s.motion.state = .running ∧ LevelOk s ∧ TablesOk s
      ∧ min (permitOf s).vb (permitOf s).vs + 2 * ((s.settings.decel + 99) / 100) < s.motion.dPrev :=
  ⟨rfl, rfl, ⟨by decide +kernel, (by decide +kernel : (running 3000).level ≤ 5)⟩, tablesOk_of _ (by decide +kernel),
    by decide +kernel⟩

theorem test_witness_stopInputs :
    TablesOk base ∧ base.driveFaultIn = false ∧ base.localStopIn = false ∧ base.resetHeld = false
      ∧ (fullReset base).resetHeld = true ∧ TablesOk (fullReset base)
      ∧ { base with driveFaultIn := true, localStopIn := true }.driveFaultIn = true
      ∧ TablesOk { base with driveFaultIn := true, localStopIn := true } :=
  ⟨tablesOk_of _ (by decide +kernel), rfl, rfl, rfl, rfl, tablesOk_of _ (by decide +kernel), rfl,
    tablesOk_of _ (by decide +kernel)⟩

/-- The vehicle with these claims. -/
def claiming (cs : List Claim) : State := { base with claims := cs }

theorem test_witness_claims :
    let held : Claim := { zone := 0, stage := .held, since := none, mark := true }
    let old : Claim := { zone := 2, stage := .intent, since := some 880, mark := false }
    let young : Claim := { zone := 2, stage := .intent, since := some 881, mark := false }
    (base.loading = false ∧ (∀ c ∈ (claiming [held]).claims, c.stage = .held) ∧ Still (claiming [held]))
      ∧ ((claiming [held, old]).placed = some (road, 6000) ∧ (∃ c ∈ (claiming [held, old]).claims, c.stage = .intent)
        ∧ (claiming [held, old]).settings.settleTime ≤ (claiming [held, old]).now - old.since.getD 0
        ∧ heldCount (claiming [held, old]) 2 + intentCount (claiming [held, old]) road 2 < road.capacity 2
        ∧ (claiming [held, old]).level ≤ 4)
      ∧ (claiming [young]).now - young.since.getD 0 < (claiming [young]).settings.settleTime
      ∧ 5 ≤ (latched 11 6 (claiming [old])).level
      ∧ road.occupied 3000 3000 0 = true ∧ road.occupied base.settings.bodyLength base.front 0 = true
      ∧ road.occupied base.settings.bodyLength base.front 2 = false
      ∧ heldPrecedingCount base road 2 < road.capacity 2 :=
  ⟨⟨rfl, by decide, still_of _ (by decide +kernel)⟩, by decide +kernel, by decide +kernel, by decide +kernel,
    by decide +kernel, by decide +kernel, by decide +kernel, by decide +kernel⟩

/-- The vehicle with zone 2 HELD, which a preceding peer fills, at this measured speed in units of 10 mm/s. -/
def contested (pace : Nat) : State :=
  let body : List Byte := [0, 9, 4, 1, 2, 0, 100, 0, 0, 1, 0, 1, 0, 0, 255, 0, 0, 1, 2, 1]
  { claiming [{ zone := 2, stage := .held, since := none, mark := false }] with
    peers := fleet.set 3 (some (peerWith .vehicle body))
    tracker := { base.tracker with history := List.replicate 10 (100 * pace) } }

theorem test_witness_yield :
    (∀ pace ∈ [219, 220], road.capacity 2 ≤ heldPrecedingCount (contested pace) road 2
        ∧ road.occupied (contested pace).settings.bodyLength (contested pace).front 2 = false)
      ∧ road.entry 2 = some 10000 ∧ yieldSpeed 800 1000 (ahead road.len (contested 0).front 10000) = 2190
      ∧ (contested 219).speed = 2190 ∧ (contested 220).speed = 2200 := by decide +kernel

/-- Lists that meet each clause of the steps: one entry and two, a zone with a HELD, an INTENT and no entry, the next zone
ahead near and far. -/
theorem test_witness_steps :
    let a : Claim := { zone := 0, stage := .held, since := none, mark := true }
    let b : Claim := { zone := 2, stage := .intent, since := some 1, mark := false }
    (claimOf [a, b] 0 = some a ∧ claimOf [a, b] 2 = some b ∧ claimOf [a, b] 5 = none ∧ claimOf [a] 2 = none)
      ∧ (∃ c ∈ [a, b], c.zone ≠ 2) ∧ (makeRoom road 3000 2 [a, b]).2 = [0]
      ∧ road.nextEntry 6000 = some (2, 4000) ∧ road.nextEntry 12000 = some (0, 8000) ∧ (∀ c ∈ [a], c.zone ≠ 2)
      ∧ ({ road with segments := [] } : Route).nextEntry 0 = none
      ∧ releaseStep road 3000 (some (6990000, 20000)) [a, b] = ([b], [0]) := by decide +kernel

/-! ## Witnesses: restraints -/

/-- The vehicle in this line test mode, with an UNUSED seat 6. -/
def testing (mode : LineMode) : State :=
  { base with
    settings := { base.settings with testMode := mode }
    restraint := { base.restraint with n := 15, seats := base.restraint.seats.set 5 { Seat.reset with state := .unused } } }

theorem test_witness_lineSample :
    State.reset.restraint.running = false
      ∧ ∀ m ∈ [LineMode.lfsr, .fixed, .off], (testing m).restraint.running = true ∧ (testing m).settings.testMode = m
        ∧ (testing m).restraint.lines[0]? = some Line.reset ∧ (testing m).restraint.seats[0 / 2]? = some verifiedSeat
        ∧ (testing m).restraint.lines[11]? = some Line.reset
        ∧ ((testing m).restraint.seats[11 / 2]?).map Seat.state = some .unused := by decide +kernel

/-- A full window in RUNNING: seat 1's lines judge DISAGREE for the third time, seat 2 reads UNLOCKED, seat 6 is UNUSED. -/
def windowState : State :=
  { running 0 with
    restraint := { base.restraint with
      fill := 16
      lines := (List.range 12).map fun k =>
        { Line.reset with driveWord := 0xCA76#16, returnWord := if k = 2 then 0 else 0xCA76#16 }
      seats := (base.restraint.seats.set 0 { verifiedSeat with disagreeRun := 2 }).set 5 { Seat.reset with state := .unused } } }

theorem test_witness_window :
    (windowState.restraint.running = true ∧ windowState.restraint.fill = 16 ∧ TablesOk windowState)
      ∧ (let q := { verifiedSeat with disagreeRun := 2 };
        windowState.restraint.seats[0]? = some q ∧ q.state ≠ .unused ∧ q.state ≠ .fault
          ∧ (seatStep windowState.settings (readingOf 160 200 .closed .closed) 200 q).state = .fault)
      ∧ (windowState.restraint.seats[1]? = some verifiedSeat ∧ windowState.motion.state.moving = true
        ∧ (seatStep windowState.settings (readingOf 160 200 .opened .closed) 200 verifiedSeat).state = .opened)
      ∧ (windowState.restraint.seats[5]?).map Seat.state = some .unused
      ∧ (∀ k ∈ [1, 3, 10, 11], (windowState.restraint.lines[k]?).isSome = true
        ∧ (windowState.restraint.seats[k / 2]?).isSome = true) :=
  ⟨⟨rfl, rfl, tablesOk_of _ (by decide +kernel)⟩, by decide +kernel, by decide +kernel, by decide +kernel,
    by decide +kernel⟩

theorem test_witness_seats :
    (verifiedSeat.state ≠ .unused ∧ verifiedSeat.state ≠ .fault ∧ verifiedSeat.releaseCheck = false)
      ∧ ({ Seat.reset with state := .fault }.state = .fault ∧ { Seat.reset with releaseCheck := true }.releaseCheck = true)
      ∧ (let q := { Seat.reset with state := .locked, verifyRun := 31 };
        q.state = .locked ∧ q.releaseCheck = false ∧ Settings.default.testMode ≠ .off
          ∧ Settings.default.verifyTime ≤ 16 * (q.verifyRun + 1))
      ∧ (∀ st ∈ [SeatState.opened, .locked, .verified, .unlocking], ∀ on ∈ [true, false],
        let q := { Seat.reset with state := st, solenoid := on }
        q.state ≠ .unused ∧ q.state ≠ .fault ∧ q.releaseCheck = false ∧ q.disagreeRun < 2 ∧ q.mismatchRun < 2 ∧ q.lowRun < 2
          ∧ q.solenoid = on ∧ 16 * (q.verifyRun + 1) < Settings.default.verifyTime)
      ∧ (seatStep Settings.default .unlocked 200 { Seat.reset with releaseCheck := true }).releaseCheck = false
      ∧ { Settings.default with testMode := .off }.testMode = .off := by decide

theorem test_witness_pulse :
    let q := { verifiedSeat with state := .unlocking, solenoid := true, pulse := some 1000 }
    let s := { parked with restraint := { parked.restraint with seats := parked.restraint.seats.set 5 q } }
    s.restraint.seats[6 - 1]? = some q ∧ q.state = .unlocking ∧ 1000 ≤ s.now ∧ TablesOk s
      ∧ s.restraint.seats[1 - 1]? = some verifiedSeat ∧ verifiedSeat.state ≠ .unlocking :=
  ⟨rfl, rfl, by decide, tablesOk_of _ (by decide +kernel), rfl, by decide⟩

/-! ## Witnesses: conditions, tallies, cues -/

theorem test_witness_occurrence :
    (base.cond.record 9).map Condition.level = some 7 ∧ (base.cond.record 9).map Condition.announceFirst = some false
      ∧ base.cond.firstFault = none
      ∧ { base.cond with firstFault := some (firstFaultOf 9 7 base) }.firstFault = some (firstFaultOf 9 7 base) := by
  decide +kernel

/-- Condition 6 as ANNOUNCE_FIRST with these announcements left and this clip. -/
def announcing (remaining : Nat) (clip : Option Nat) (s : State) : State :=
  onRecord 6 (fun c => { c with announceFirst := true, count := 2, remaining := remaining, clip := clip }) s

theorem test_witness_occurrence_stands : Stands base.cond.handed base.motion.state := by
  show base.cond.handed ≤ 6
  decide

/-- A counter of FRAME_BAD with limit 3, and a chained one of HOLD_LONG. -/
def badCounter : Counter := { Counter.default with event := .frameBad, limit := 3, value := 2 }
def holdCounter : Counter := { Counter.default with event := .holdLong, threshold := 50, chained := true }
def counting : State :=
  { base with cond := { base.cond with counters := [badCounter, holdCounter, Counter.default, Counter.default] } }

theorem test_witness_tally :
    (counting.cond.counters[0]? = some badCounter ∧ badCounter.takes .frameBad counting = true
        ∧ badCounter.limit ≤ badCounter.value + 1)
      ∧ counting.cond.counters[1]? = some holdCounter ∧ holdCounter.takes .frameBad counting = false
      ∧ { badCounter with phase := .stopped, zone := .unmarked }.takes .frameBad counting = true
      ∧ { badCounter with phase := .moving }.takes .frameBad counting = false
      ∧ { badCounter with zone := .marked }.takes .frameBad counting = false := by decide +kernel

/-- A hold begun at 800, whose threshold of 200 ms is reached at 1000. -/
def holding : State :=
  { counting with cond := { counting.cond with
      durations := [{ key := .holdLong, start := 800, passed := List.replicate 4 false }] } }

theorem test_witness_threshold :
    (holding.duration .holdLong).map Duration.passed = some (List.replicate 4 false)
      ∧ holding.cond.counters[2 - 1]? = some holdCounter ∧ holdCounter.event = durationEvent .holdLong
      ∧ 4 * holdCounter.threshold ≤ holding.now - 800
      ∧ badCounter.event ≠ durationEvent .holdLong ∧ holding.cond.counters[1 - 1]? = some badCounter := by decide +kernel

/-- The vehicle with these cues waiting. -/
def withWaiting (ws : List WaitingCue) : State := { withCues with cues := { withCues.cues with waiting := ws } }

theorem test_witness_cueOccurs :
    (withCues.cues.table[1]? = some zoneCue ∧ zoneCue.enabled = true ∧ withCues.level ≤ zoneCue.gate
        ∧ zoneCue.fired = false ∧ (∀ w ∈ withCues.cues.waiting, w.cue ≠ 1) ∧ withCues.cues.waiting.length < 16)
      ∧ 16 ≤ (withWaiting ((List.range 16).map fun i => { cue := i + 2, due := 1000 })).cues.waiting.length
      ∧ (∀ w ∈ (withWaiting ((List.range 16).map fun i => { cue := i + 2, due := 1000 })).cues.waiting, w.cue ≠ 1)
      ∧ zoneCue.gate < (latched 9 7 withCues).level ∧ { zoneCue with fired := true }.fired = true
      ∧ ∃ w ∈ (withWaiting [{ cue := 1, due := 1000 }]).cues.waiting, w.cue = 1 := by decide +kernel

theorem test_witness_ms :
    (fullReset base).resetHeld = true ∧ base.resetHeld = false
      ∧ (let s := withWaiting [{ cue := 1, due := 1002 }];
        (∀ w ∈ s.cues.waiting, s.now + 1 < w.due) ∧ Still s)
      ∧ (let s := withWaiting [{ cue := 1, due := 1001 }];
        s.resetHeld = false ∧ s.cues.waiting = [{ cue := 1, due := 1001 }] ∧ 1001 ≤ s.now + 1
          ∧ s.cues.table[1]? = some zoneCue ∧ zoneCue.action = .linkCue 3 6 ∧ s.link.queue.length < 8 ∧ Still s) :=
  ⟨rfl, rfl, ⟨by decide +kernel, still_of _ (by decide +kernel)⟩,
    ⟨rfl, rfl, by decide, rfl, rfl, by decide, still_of _ (by decide +kernel)⟩⟩

/-- A voice on clip 0 of this priority, state and start order. -/
def voiceOf (st : VoiceState) (priority rank : Nat) : Voice :=
  { Voice.idle with state := st, priority := priority, rank := rank, tag := .cue rank }

/-- The vehicle with clip 0 present, these voices and this read. -/
def sounding (vs : List Voice) (r : Option Read) : State :=
  { base with sound :=
      { SoundEngine.reset with
        clips := (some { address := 4096, length := 24000, loops := true }) :: List.replicate 127 none
        voices := vs ++ List.replicate (8 - vs.length) Voice.idle, read := r } }

/-- Cue 0 due now with this action, on a vehicle with this queue, these voices, and clip 0 present. -/
def acting (a : CueAction) (queue : List QueuedFrame) (vs : List Voice) : State :=
  { onLink .idle queue with
    cues := { table := [{ sceneCue with action := a }], waiting := [{ cue := 0, due := 1001 }] }
    sound := { (sounding vs none).sound with read := some { voice := 0, start := 0, size := 256, timeout := 1002 } } }

theorem test_witness_actions :
    (∀ s ∈ [acting (.linkCue 3 6) (List.replicate 7 waitingCueFrame ++ [waitingReport]) [],
        acting (.linkCue 3 6) (List.replicate 8 waitingCueFrame) [], acting (.soundStart 0 1 [] none) [] [],
        acting (.soundStart 1 1 [] none) [] [], acting (.soundStop 4) [] [voiceOf .fetching 1 1], acting .invalid [] []],
      s.resetHeld = false ∧ s.cues.waiting = [{ cue := 0, due := 1001 }] ∧ 1001 ≤ s.now + 1 ∧ Still s ∧ TablesOk s)
      ∧ (∀ g ∈ List.replicate 8 waitingCueFrame, g.isCue = true) ∧ waitingReport = .report 1 [4, 0, 1]
      ∧ (let r := startVoice (acting .invalid [] []) (conditionRequest 6 0);
        r.started = true ∧ r.stolen = none ∧ r.ended = false)
      ∧ (startVoice (acting .invalid [] []) (conditionRequest 6 1)).started = false
      ∧ (∀ v ∈ (acting .invalid [] [voiceOf .fetching 1 1]).sound.voices, v.state = .idle ∨ v.tag ≠ .cue 4)
      ∧ cuesWhere (fun t => t = .cueDone 0) (acting .invalid [] []) = [] := by
  refine ⟨?_, by decide, rfl, by decide +kernel, by decide +kernel, by decide +kernel, by decide +kernel⟩
  simp only [List.mem_cons, List.not_mem_nil, or_false]
  intro s hs
  refine ⟨?_, ?_, ?_, still_of _ ?_, tablesOk_of _ ?_⟩ <;>
    (rcases hs with h | h | h | h | h | h <;> subst h <;> decide +kernel)

/-- A stop whose announcement steals a voice, which trips a counter of level 7; a MOTION cue for ESTOP stands before the one
for STOPPING. -/
def stoppingTrips : State :=
  let s := sounding (List.replicate 8 (voiceOf .playing 1 1)) none
  let cue : CueEntry := { zoneCue with gate := 7, showEffect := false }
  { s with
    settings := { s.settings with stopClip := some 0 }
    cond := { s.cond with
      records := updateAt 19 (fun c => { c with level := 7 }) s.cond.records
      counters := [{ Counter.default with event := .voiceSteal, limit := 1 }] }
    cues := { table := [{ cue with trigger := .motion 8 }, { cue with trigger := .motion 6 }], waiting := [] } }

/-- R78, R150: the entry into ESTOP that the handing on of STOPPING makes is handed on after it, so STOPPING's trigger occurs
first. -/
theorem test_entries_in_order :
    let t := atOnce (enter .stopping stoppingTrips)
    t.motion.state = .estop ∧ t.cues.waiting.map WaitingCue.cue = [1, 0] := by decide +kernel

/-- An announcement that cannot be made, that has no clip, that is refused, that starts, and that steals. -/
theorem test_witness_announce :
    (∀ s ∈ [announcing 0 none base, announcing 2 none base, announcing 2 (some 0) (sounding [] none),
        announcing 1 (some 0) (sounding (List.replicate 8 (voiceOf .playing 3 1)) none),
        announcing 1 (some 0) (sounding (List.replicate 8 (voiceOf .playing 1 1)) none)],
      s.loading = false ∧ (s.cond.record 6).map Condition.announceFirst = some true
        ∧ (s.cond.record 6).map Condition.announcement = some .none)
      ∧ ((requestVoice (conditionRequest 6 0) (sounding [] none)).2.started = true
        ∧ (requestVoice (conditionRequest 6 0) (sounding [] none)).2.stolen = none)
      ∧ (requestVoice (conditionRequest 6 0) (sounding (List.replicate 8 (voiceOf .playing 3 1)) none)).2.started = false
      ∧ (requestVoice (conditionRequest 6 0) (sounding (List.replicate 8 (voiceOf .playing 1 1)) none)).2.stolen
        = some (.cue 1) := by decide +kernel

theorem test_witness_watch :
    withCues.cues.table[0]? = some sceneCue ∧ sceneCue.watching = true ∧ sceneCue.watchExpiry = some 1000
      ∧ 1000 ≤ withCues.now ∧ { withCues with now := 999 }.now < 1000 := by decide

/-- A move of 5 m from here, with its new ground, and a backward match. -/
def moved : PosChange :=
  { kind := .advance, span := some (6000000, 5000000), ground := some (6000000, 5000000), code := none, oldZone := some 255,
    arrival := false }
def back : PosChange := { moved with kind := .backwardMatch, span := none, ground := none }

theorem test_witness_watchChange :
    let inside := { withCues with tracker := { base.tracker with pos := 11000000 } }
    (withCues.governedZone 3 = some 2 ∧ withCues.frontZone = some 255 ∧ moved.span.isSome = true)
      ∧ (inside.governedZone 3 = some 2 ∧ inside.frontZone = some 2 ∧ comesInto road moved 2 = true
        ∧ comesInto road back 2 = false)
      ∧ (back.span = none ∧ back.kind ≠ .fix ∧ back.kind ≠ .initialFix)
      ∧ (zoneCue.enabled = true ∧ ∀ a x, zoneCue.trigger ≠ .sceneTime a x)
      ∧ withCues.estimate 9 = none ∧ withCues.estimate 3 = some 43300 ∧ sceneReached 43300 43300 = true
      ∧ sceneReached 43300 43301 = false ∧ { sceneCue with watching := false }.watching = false
      ∧ groundCues road moved.ground withCues = [1] ∧ triggerPlace road zoneCue.trigger = some (10000000, 0) := by
  refine ⟨by decide +kernel, by decide +kernel, by decide, ⟨rfl, fun _ _ h => by cases h⟩, ?_⟩
  decide +kernel

theorem test_witness_scene :
    base.peer 3 = some (peerWith .scene sceneBody) ∧ base.estimate 3 = some 43300
      ∧ (later 1051 3 .scene sceneBody .stale).estimate 3 = none ∧ base.peer 9 = none
      ∧ sceneReached 8388607 0 = true ∧ sceneReached 8388608 0 = false ∧ sceneWait 0 16777215 = 16777215 := by
  decide +kernel

/-! ## Witnesses: sound -/

/-- A read of voice 0's first block, granted at 998. -/
def firstRead : Read := { voice := 0, start := 0, size := 256, timeout := 1000 }

theorem test_witness_frame :
    (fullReset base).resetHeld = true ∧ (sounding [voiceOf .playing 1 1] none).resetHeld = false
      ∧ (∀ w ∈ (sounding [voiceOf .fetching 1 1] none).sound.voices, w.state ≠ .playing ∧ w.state ≠ .fading)
      ∧ voiceOf .fading 3 1 ∈ (sounding [voiceOf .fading 3 1] none).sound.voices := by decide +kernel

/-- Two buffers that hold the samples 0 to 3. -/
def fullBufs : List Block := [{ start := 0, samples := [5, 6] }, { start := 2, samples := [7, 8] }]

/-- A frame in which nothing starves or ends; the last frame of a fade, of a clip, and of a crossfade; a PENDING jump. -/
theorem test_witness_frames_of_voices :
    let one : Clip := { address := 0, length := 1, loops := false }
    let w := { voiceOf .playing 1 1 with bufs := fullBufs }
    let f := { w with state := .fading, fadeStep := 0 }
    (Still (sounding [w] none)
        ∧ ∀ q ∈ (sounding [w] none).sound.frames, q.all (fun v => !v.starves && v.ended.isNone) = true)
      ∧ (mixOut 4194239 = 32767 ∧ mixOut 4194240 = 32767 ∧ mixOut (-4194304) = -32768 ∧ mixOut (-4194305) = -32768)
      ∧ sampleAt fullBufs 3 = some 8 ∧ sampleAt fullBufs 4 = none
      ∧ (voiceFrame one false w).ended = some true ∧ (voiceFrame one false f).ended = some false
      ∧ (voiceFrame one false { w with bufs := [] }).starves = true
      ∧ (voiceFrame one false { w with jump := .pending 9 0 }).voice.jump = .pending 9 1
      ∧ (voiceFrame one false { w with jump := .crossfade 9 { start := 9, samples := [1] } 2 }).voice.jump
        = .crossfade 10 { start := 9, samples := [1] } 1
      ∧ (voiceFrame one false { w with jump := .crossfade 9 { start := 9, samples := [1] } 1 }).voice.cursor = 10
      ∧ effGain true w 255 = 128 ∧ effGain false { f with fadeStep := 63 } 128 = 126 := by
  refine ⟨⟨still_of _ (by decide +kernel), by decide +kernel⟩, ?_⟩
  decide +kernel

/-- Table 9.8: a request of priority 2 takes voice 2 and one of priority 3 then voice 4; one of priority 0 is refused. -/
theorem test_voices :
    let vs := [voiceOf .playing 3 1, voiceOf .fading 1 2, voiceOf .fading 0 3, voiceOf .fading 2 4, voiceOf .fading 0 5,
      voiceOf .fading 1 6, voiceOf .fading 2 7, voiceOf .fetching 3 8]
    (sounding vs none).sound.target 2 = some 2 ∧ (sounding vs none).sound.target 0 = none
      ∧ (sounding vs none).sound.clip 0 ≠ none ∧ (sounding vs none).sound.clip 1 = none
      ∧ (sounding (vs.take 7) none).sound.target 0 = some 7 := by decide +kernel

/-- Placing by a lock, stopping, and the check of a locked voice, clause by clause. -/
theorem test_witness_voices :
    let lock : SceneLock := { scene := 3, anchor := 100 }
    let one : Clip := { address := 0, length := 24000, loops := false }
    let req : StartRequest := { conditionRequest 6 0 with lock := some lock }
    (sceneReached 99 lock.anchor = false ∧ sceneReached 100 lock.anchor = true ∧ req.lock = some lock)
      ∧ (placeVoice 5 (some 1100) one req 1 = none ∧ (placeVoice 5 (some 1099) one req 1).map Voice.cursor = some 23976)
      ∧ (sceneSince 1100 100 * 24 = 24000 ∧ driftOf one 480 0 = 480 ∧ driftOf one 481 0 = 481)
      ∧ (∀ st ∈ [VoiceState.idle, .fetching, .waiting, .playing, .fading],
        (sounding [voiceOf st 1 1] none).sound.voices[0]? = some (voiceOf st 1 1) ∧ (voiceOf st 1 1).state = st)
      ∧ { voiceOf .playing 1 1 with jump := .pending 9 0 }.jump = .pending 9 0
      ∧ checkDue 1000 1000 { voiceOf .playing 1 1 with lastCheck := some 0 } = true
      ∧ checkDue 1000 999 { voiceOf .playing 1 1 with lastCheck := some 0 } = false := by decide +kernel

theorem test_witness_reads :
    (let s := sounding [voiceOf .fetching 1 1] (some firstRead);
      s.sound.read = some firstRead ∧ s.sound.voices[firstRead.voice]? = some (voiceOf .fetching 1 1)
        ∧ (voiceOf .fetching 1 1).jump = .none ∧ (voiceOf .fetching 1 1).waitExpiry = none
        ∧ firstRead.voice = 0 ∧ firstRead.timeout = 998 + 2 ∧ firstRead.timeout ≠ 997 + 2
        ∧ s.motion.notices = [] ∧ judgeStanding s = s ∧ firstRead.timeout ≤ s.now ∧ TablesOk s)
      ∧ { voiceOf .playing 1 1 with jump := .pending 9 0 }.jump = .pending 9 0
      ∧ (let w := { voiceOf .fetching 1 1 with waitExpiry := some 1001 };
        w.state = .fetching ∧ w.jump = .none ∧ base.now < 1001)
      ∧ (let w := { voiceOf .waiting 1 1 with
            waitExpiry := some 1000, bufs := [{ start := 0, samples := [0] }, { start := 1, samples := [0] }] };
        let s := sounding [w] none;
        s.sound.voices[0]? = some w ∧ w.state = .waiting ∧ 1000 ≤ s.now ∧ s.sound.read = none ∧ Still s)
      ∧ { base with now := 999 }.now < firstRead.timeout :=
  ⟨⟨rfl, rfl, rfl, rfl, rfl, rfl, by decide, rfl, by decide +kernel, by decide, tablesOk_of _ (by decide +kernel)⟩, rfl,
    by decide, ⟨rfl, rfl, by decide, rfl, still_of _ (by decide +kernel)⟩, by decide⟩

/-- A read that times out while level 3 stands, with SOUND_FAULT at its default level 2. -/
theorem test_witness_timeout :
    let s := latched 1 3 (sounding [voiceOf .fetching 1 1] (some firstRead))
    s.sound.read = some firstRead ∧ firstRead.timeout ≤ s.now ∧ s.sound.voices[firstRead.voice]? = some (voiceOf .fetching 1 1)
      ∧ (voiceOf .fetching 1 1).state ≠ .idle ∧ (voiceOf .fetching 1 1).tag = .cue 1
      ∧ s.cond.record 18 = some (Condition.default 2) ∧ (Condition.default 2).level ≤ s.level ∧ LevelOk s ∧ Still s :=
  ⟨rfl, by decide, rfl, by decide, rfl, by decide +kernel, by decide +kernel,
    ⟨by decide +kernel, (by decide +kernel :
      (latched 1 3 (sounding [voiceOf .fetching 1 1] (some firstRead))).level ≤ 6)⟩, still_of _ (by decide +kernel)⟩

/-! ## Single commands -/

/-- A command answers a next state with a property. -/
def after (c : Instr) (s : State) (p : State → Bool) : Bool :=
  match step (s.withCommand c) with
  | .next t => p t
  | .fault _ => false
  | .refused _ => false

/-- Table 4.10: DISPATCH in PARKED is refused, LIFT leads to READY, DISPATCH then to RUNNING with the brake released. -/
theorem test_dispatch_refused :
    after (.dispatch 2 5) parked (fun t => t.motion.state = .parked
      && t.link.lastRefusal = some { kind := .dispatch, reason := .wrongState, source := 2 }) = true := by decide +kernel

theorem test_lift_leads_to_ready :
    after (.retireLift 1 5) parked (fun t => t.motion.state = .ready && t.motion.atStation = false) = true := by
  decide +kernel

theorem test_dispatch_taken :
    after (.dispatch 2 5) ready (fun t => t.motion.state = .running && !t.brakeLine && t.motion.dPrev = 0) = true := by
  decide +kernel

/-- R76, R58: the local stop input takes the vehicle from RUNNING to ESTOP; the first-fault record shows RUNNING. -/
theorem test_local_stop :
    after .localStop (running 100) (fun t => t.motion.state = .estop && t.brakeLine && t.level = 7
      && (t.cond.firstFault.map FirstFault.motion) = some .running) = true := by decide +kernel

/-- R64, R71: an interval in RUNNING raises the demand by U = 5. -/
theorem test_interval :
    after .permitCompute (running 100)
      (fun t => t.motion.record = some { speed := 105, curvature := 250, brake := false }) = true := by decide +kernel

/-- Section 6.9: a third DISAGREE gives FAULT, whose RESTRAINT_FAULT stops the vehicle at level 6; an open bar is OPEN. -/
theorem test_window :
    after (.windowEnd [200, 200, 200, 200, 200, 200]) windowState (fun t => t.restraint.seats.map Seat.state
        = [.fault, .opened, .verified, .verified, .verified, .unused] && t.level = 6 && t.motion.state = .stopping)
      = true := by decide +kernel

/-- R165, R168: the first block of a voice puts it into PLAYING, and the arbiter grants the next read. -/
theorem test_fetch :
    after (.fetchComplete ⟨0, 998, List.replicate 256 1⟩) (sounding [voiceOf .fetching 1 1] (some firstRead))
      (fun t => (t.sound.voices.map Voice.state).head? = some .playing
        && t.sound.read = some { voice := 0, start := 256, size := 256, timeout := 1002 }) = true := by decide +kernel

/-- R168: the timeout taken first leaves the voice IDLE, and a completion of that read then finds no read. -/
theorem test_timeout :
    after .fetchTimeout (sounding [voiceOf .fetching 1 1] (some firstRead))
      (fun t => t.sound.voices.all (fun w => w.state = .idle) && t.sound.read.isNone && t.level = 2) = true
      ∧ exec (.fetchComplete ⟨0, 997, []⟩) (sounding [voiceOf .fetching 1 1] (some firstRead))
        = .next (sounding [voiceOf .fetching 1 1] (some firstRead)) :=
  ⟨by decide +kernel, rfl⟩

/-- R92: a HELD zone whose capacity a preceding peer holds is yielded at rest, at an accepted beacon of that peer. -/
theorem test_yield :
    let body : List Byte := [0, 10, 4, 1, 2, 0, 100, 0, 0, 1, 0, 1, 0, 0, 255, 0, 0, 1, 2, 1]
    after (.receiveFrame (frameOf 0 4 0 body)) (claiming [{ zone := 2, stage := .held, since := none, mark := false }])
      (fun t => t.claims = [{ zone := 2, stage := .intent, since := some 1000, mark := false }]) = true := by decide +kernel

end Sys2Proof.Tests
end

section
/-! What every step keeps of the Link Controller. `linkPart` is what `LinkOk` reads of the state. An operation of
another block leaves it as it was; an operation of the Link Controller or of the loader has one lemma that says it keeps
`LinkOk`. -/
namespace Sys2Proof.RideLink
open Sys2Proof.Machine Sys2Proof.Safety

/-! ## Answers of `exec` -/

/-- The outcome is a next state with a property. -/
def Answers (P : State → Prop) (o : Host.Outcome State Fault Refusal) : Prop := ∃ t, o = .next t ∧ P t

theorem answers_next {P : State → Prop} {t : State} (h : P t) : Answers P (.next t) := ⟨t, rfl, h⟩

/-- A property that does not read the queue of waiting commands is kept by every step when every command keeps it. -/
theorem kept_of_exec {P : State → Prop} (hq : ∀ s q, P s → P { s with pending := q })
    (he : ∀ c s, P s → Answers P (exec c s)) : Kept P := by
  intro s t hs ht
  unfold step at ht
  split at ht
  · injection ht with ht
    exact ht ▸ hs
  · rename_i c rest _
    obtain ⟨u, hu, pu⟩ := he c _ (hq s rest hs)
    rw [hu] at ht
    injection ht with ht
    exact ht ▸ pu

/-! ## Command rows -/

/-- What the owner of a command row does with the command once it is accepted (R13); no command row, nothing. -/
def commandOwner : Instr → State → State
  | .stopRide _ => ownStopRide
  | .stopZone _ zone => ownStopZone zone
  | .resume source _ => ownResume source
  | .dispatch source _ => ownDispatch source
  | .unlock source _ seats => ownUnlock source seats
  | .clear _ _ conditions options => ownClear conditions options
  | .retireImmediate _ _ => ownRetireImmediate
  | .retireAtStation _ _ => ownRetireAtStation
  | .retireLift _ _ => ownRetireLift
  | .forget _ _ address => forgetPeer address
  | .query source _ kind selector => ownQuery source kind selector
  | .restart source _ => ownRestart source
  | _ => id

/-- R10, R12, R13: every command row is the reception of a frame with its header, judged by its owner (log 7). -/
theorem exec_commandHeader {c : Instr} {kind : CommandKind} {source target : Nat} {s : State}
    (h : commandHeader c = some (kind, source, target)) :
    exec c s = .next (settle (commandRow kind source target (commandOwner c) s)) := by
  unfold commandHeader at h
  split at h
  case h_13 => exact nomatch h
  all_goals
    simp only [Option.some.injEq, Prod.mk.injEq] at h
    obtain ⟨rfl, rfl, rfl⟩ := h
    rfl

/-! ## What `LinkOk` reads -/

/-- The items of the Link Controller and the loader that `LinkOk` is about. -/
def linkPart (s : State) :
    Nat × Nat × List QueuedFrame × AccessState × Option (List Byte) × Nat × Option Staged :=
  (s.link.k, s.link.slots, s.link.queue, s.link.access, s.link.onAir, s.link.ownAddress, s.loader.staged)

theorem linkOk_of_part {s t : State} (h : LinkOk s) (e : linkPart t = linkPart s) : LinkOk t := by
  simp only [linkPart, Prod.mk.injEq] at e
  obtain ⟨hk, hs, hq, ha, ho, hown, hst⟩ := e
  exact
    { kLow := hk ▸ h.kLow
      kHigh := hk ▸ h.kHigh
      slots := hs ▸ h.slots
      queueLength := hq ▸ h.queueLength
      queueOrder := hq ▸ h.queueOrder
      onAir := by rw [ho, ha]; exact h.onAir
      address := hown ▸ h.address
      staged := hst ▸ h.staged }

theorem linkPart_of_eq {s t : State} (hl : t.link = s.link) (hd : t.loader = s.loader) : linkPart t = linkPart s := by
  unfold linkPart
  rw [hl, hd]

theorem linkPart_aside {s t : State} (h : Aside s t) : linkPart t = linkPart s :=
  linkPart_of_eq h.outside.link h.outside.loader

theorem linkPart_calm {s t : State} (h : Calm s t) : linkPart t = linkPart s := linkPart_aside h.toAside

theorem linkPart_calmClaims {s t : State} (h : CalmClaims s t) : linkPart t = linkPart s :=
  (linkPart_calm (s := { s with claims := t.claims }) h).trans rfl

theorem linkPart_foldl {α : Type} {f : State → α → State} (hf : ∀ a x, linkPart (f a x) = linkPart a) (xs : List α)
    (s : State) : linkPart (xs.foldl f s) = linkPart s := by
  induction xs generalizing s with
  | nil => rfl
  | cons x xs ih => exact (ih (f s x)).trans (hf s x)

theorem linkOk_aside {s t : State} (h : LinkOk s) (a : Aside s t) : LinkOk t := linkOk_of_part h (linkPart_aside a)

theorem linkOk_calm {s t : State} (h : LinkOk s) (c : Calm s t) : LinkOk t := linkOk_of_part h (linkPart_calm c)

theorem linkOk_settle {s : State} (h : LinkOk s) : LinkOk (settle s) := linkOk_aside h (settle_aside s)

/-- A command that does nothing unless a test holds, and else settles what it has done. -/
theorem linkOk_settle_if {c : Prop} [Decidable c] {s u : State} (h : LinkOk s) (hu : LinkOk u) :
    LinkOk (if c then settle u else s) := by
  split
  · exact linkOk_settle hu
  · exact h

/-! ## The transmit queue (R6, R7, R8) -/

theorem filter_append_parts {α : Type} {p : α → Bool} {a b : List α} (ha : ∀ x ∈ a, p x = true)
    (hb : ∀ x ∈ b, p x = false) : (a ++ b).filter p = a ∧ (a ++ b).filter (fun x => !p x) = b := by
  have ha' : a.filter (fun x => !p x) = [] := List.filter_eq_nil_iff.mpr fun x hx => by simp [ha x hx]
  have hb' : b.filter p = [] := List.filter_eq_nil_iff.mpr fun x hx => by simp [hb x hx]
  constructor
  · rw [List.filter_append, hb', List.append_nil, List.filter_eq_self.mpr ha]
  · rw [List.filter_append, ha', List.nil_append, List.filter_eq_self.mpr fun x hx => by simp [hb x hx]]

/-- R6: CUE frames followed by REPORT frames are in order. -/
theorem cuesFirst_append {a b : List QueuedFrame} (ha : ∀ f ∈ a, f.isCue = true) (hb : ∀ f ∈ b, f.isCue = false) :
    cuesFirst (a ++ b) := by
  obtain ⟨h1, h2⟩ := filter_append_parts ha hb
  rw [cuesFirst, h1, h2]

theorem cues_isCue (q : List QueuedFrame) : ∀ f ∈ q.filter QueuedFrame.isCue, f.isCue = true := by simp

theorem reports_isCue (q : List QueuedFrame) : ∀ f ∈ q.filter (fun f => !f.isCue), f.isCue = false := by simp

/-- R6, R7: a CUE that joins leaves the CUE frames ahead of the REPORT frames, whatever the order before. -/
theorem cuesFirst_joinCue {f : QueuedFrame} (hf : f.isCue = true) (q : List QueuedFrame) : cuesFirst (joinCue f q) := by
  refine cuesFirst_append (fun g hg => ?_) (reports_isCue q)
  rcases List.mem_append.mp hg with hg | hg
  · exact cues_isCue q g hg
  · rw [List.mem_singleton.mp hg]
    exact hf

theorem joinCue_length (f : QueuedFrame) (q : List QueuedFrame) : (joinCue f q).length = q.length + 1 := by
  have h := List.length_eq_length_filter_add (l := q) QueuedFrame.isCue
  simp only [joinCue, List.length_append, List.length_singleton]
  omega

/-- R6: a REPORT at the back of an ordered queue. -/
theorem cuesFirst_snoc {q : List QueuedFrame} (h : cuesFirst q) (dest : Nat) (body : List Byte) :
    cuesFirst (q ++ [.report dest body]) := by
  have e : q ++ [.report dest body]
      = q.filter QueuedFrame.isCue ++ (q.filter (fun f => !f.isCue) ++ [.report dest body]) := by
    rw [← List.append_assoc, show q.filter QueuedFrame.isCue ++ q.filter (fun f => !f.isCue) = q from h]
  rw [e]
  refine cuesFirst_append (cues_isCue q) fun f hf => ?_
  rcases List.mem_append.mp hf with hf | hf
  · exact reports_isCue q f hf
  · rw [List.mem_singleton.mp hf]
    rfl

/-- R7: the REPORT that is displaced leaves a queue that is one frame shorter. -/
theorem dropReport_length {q rest : List QueuedFrame} {dest : Nat} (h : dropReport q = some (dest, rest)) :
    rest.length + 1 = q.length := by
  have hlen := List.length_eq_length_filter_add (l := q) QueuedFrame.isCue
  unfold dropReport at h
  split at h
  · rename_i body hlast
    injection h with h
    injection h with _ h
    have hpos : 0 < (q.filter fun g => !g.isCue).length := by
      cases hq : q.filter fun g => !g.isCue with
      | nil => rw [hq] at hlast; simp at hlast
      | cons g gs => simp
    rw [← h]
    simp only [List.length_append, List.length_dropLast]
    omega
  · simp at h

/-- R6: an ordered queue from which frames are taken stays in order. -/
theorem cuesFirst_sublist {q r : List QueuedFrame} (h : cuesFirst q) (hr : r.Sublist q) : cuesFirst r := by
  rw [← (show q.filter QueuedFrame.isCue ++ q.filter (fun f => !f.isCue) = q from h)] at hr
  obtain ⟨a, b, rfl, ha, hb⟩ := List.sublist_append_iff.mp hr
  exact cuesFirst_append (fun f hf => cues_isCue q f (ha.subset hf)) (fun f hf => reports_isCue q f (hb.subset hf))

/-- R8: a late CUE is taken out of the queue; the other frames keep their order. -/
theorem takeLate_sublist {limit now : Nat} {q r : List QueuedFrame} (h : takeLate limit now q = some r) :
    r.Sublist q := by
  induction q generalizing r with
  | nil => simp [takeLate] at h
  | cons f q ih =>
    cases f with
    | cue stamp id dest body =>
      rw [takeLate] at h
      split at h
      · injection h with h
        exact h ▸ List.sublist_cons_self _ _
      · obtain ⟨r', hr', rfl⟩ := Option.map_eq_some_iff.mp h
        exact (ih hr').cons_cons _
    | report dest body =>
      rw [takeLate] at h
      obtain ⟨r', hr', rfl⟩ := Option.map_eq_some_iff.mp h
      exact (ih hr').cons_cons _

theorem linkOk_setQueue {s : State} (h : LinkOk s) {q : List QueuedFrame} (hl : q.length ≤ 8) (ho : cuesFirst q) :
    LinkOk (setQueue q s) :=
  { h with queueLength := hl, queueOrder := ho }

/-! ## Channel access (R1, R2) -/

/-- R1: a draw of slots for an exponent of at most 6 is at most 63. -/
theorem draw_le_63 {k : Nat} (hk : k ≤ 6) (n : Nat) : n % 2 ^ k ≤ 63 := by
  have h1 : n % 2 ^ k < 2 ^ k := Nat.mod_lt _ (Nat.two_pow_pos k)
  have h2 : 2 ^ k ≤ 2 ^ 6 := Nat.pow_le_pow_right (by decide) hk
  omega

/-- A change of the access state other than into or out of SENDING. -/
theorem linkOk_access {s : State} (h : LinkOk s) (hs : s.link.access ≠ .sending) {a : AccessState} (ha : a ≠ .sending)
    {n : Nat} (hn : n ≤ 63) : LinkOk { s with link := { s.link with access := a, slots := n } } :=
  { h with
    slots := hn
    onAir := by
      show s.link.onAir.isSome ↔ a = .sending
      rw [h.onAir]
      exact iff_of_false hs ha }

theorem linkOk_enterCountdown {s : State} (h : LinkOk s) (hs : s.link.access ≠ .sending) : LinkOk (enterCountdown s) :=
  linkOk_of_part (linkOk_access h hs (by decide : AccessState.countdown ≠ .sending) (draw_le_63 h.kHigh _)) rfl

theorem linkOk_requestChannel {s : State} (h : LinkOk s) : LinkOk (requestChannel s) := by
  unfold requestChannel
  split
  · rename_i hc
    have hs : s.link.access ≠ .sending := by
      simp only [Bool.and_eq_true, decide_eq_true_eq] at hc
      rw [hc.1.1]
      decide
    split
    · exact linkOk_enterCountdown h hs
    · exact linkOk_access h hs (by decide) h.slots
  · exact h

theorem linkOk_startSending {s : State} (h : LinkOk s) (frame : List Byte) : LinkOk (startSending frame s) :=
  { h with slots := Nat.zero_le _, onAir := iff_of_true rfl rfl }

theorem linkOk_carrierOn {s : State} (h : LinkOk s) : Answers LinkOk (execCarrierOn s) := by
  refine answers_next ?_
  split
  · exact h
  · dsimp only
    split
    · rename_i ha
      have hu := linkOk_access h (by rw [ha]; decide) (by decide : AccessState.gap ≠ .sending) (Nat.zero_le 63)
      have hk : 3 ≤ min 6 (s.link.k + 1) := Nat.le_min.mpr ⟨by decide, Nat.le_succ_of_le h.kLow⟩
      exact { hu with kLow := hk, kHigh := Nat.min_le_left _ _ }
    all_goals exact linkOk_of_part h rfl

theorem linkOk_gapMet {s : State} (h : LinkOk s) : Answers LinkOk (execGapMet s) := by
  refine answers_next ?_
  have ht : LinkOk { s with link := { s.link with quiet := true } } := linkOk_of_part h rfl
  split
  · exact h
  · dsimp only
    split
    · rename_i ha
      exact linkOk_enterCountdown ht (fun e => absurd (ha.symm.trans e) (by decide))
    all_goals exact ht

theorem linkOk_sendBeacon {s : State} (h : LinkOk s) : LinkOk (sendBeacon s) :=
  linkOk_of_part (linkOk_startSending h s.beaconFrame) ((linkPart_calmClaims (evaluateClaims_calm _)).trans rfl)

theorem linkOk_sendQueued {s : State} (h : LinkOk s) {f : QueuedFrame} {rest : List QueuedFrame}
    (hq : s.link.queue = f :: rest) : LinkOk (sendQueued f rest s) := by
  have hr : rest.Sublist s.link.queue := hq ▸ List.sublist_cons_self f rest
  have hqueue := linkOk_setQueue h (hr.length_le.trans h.queueLength) (cuesFirst_sublist h.queueOrder hr)
  have ht := linkOk_startSending hqueue (queuedBytes s.link.ownAddress f)
  cases f with
  | cue stamp id dest body => exact linkOk_calm ht (cueDone_calm id _)
  | report dest body => exact ht

theorem linkOk_countdownEnd {s : State} (h : LinkOk s) : Answers LinkOk (execCountdownEnd s) := by
  refine answers_next ?_
  split
  · rename_i ha
    refine linkOk_settle ?_
    unfold chooseFrame
    split
    · exact linkOk_sendBeacon h
    · split
      · exact linkOk_access h (by rw [ha]; decide) (by decide) (Nat.zero_le _)
      · rename_i hq
        exact linkOk_sendQueued h hq
  all_goals exact h

theorem linkOk_transmissionEnd {s : State} (h : LinkOk s) : Answers LinkOk (execTransmissionEnd s) := by
  refine answers_next ?_
  split
  · refine { h with kLow := Nat.le_refl 3, kHigh := (by decide : 3 ≤ 6), onAir := iff_of_false (by simp) ?_ }
    dsimp only
    split <;> decide
  all_goals exact h

/-! ## The beacon (R3) -/

theorem linkOk_loadBeaconTimer {s : State} (h : LinkOk s) : LinkOk (loadBeaconTimer s) := linkOk_of_part h rfl

theorem linkOk_beaconBecomesDue {s : State} (h : LinkOk s) : LinkOk (beaconBecomesDue s) := by
  unfold beaconBecomesDue
  split
  · exact h
  · exact linkOk_requestChannel (linkOk_of_part h rfl)

theorem linkOk_beaconAtOnce {s : State} (h : LinkOk s) : LinkOk (beaconAtOnce s) :=
  linkOk_beaconBecomesDue (linkOk_loadBeaconTimer h)

theorem linkOk_beaconTimerExpiry {s : State} (h : LinkOk s) : Answers LinkOk (execBeaconTimerExpiry s) := by
  refine answers_next ?_
  split
  · exact h
  · split
    · exact linkOk_beaconAtOnce h
    · exact h

/-! ## Expiries of the queue and the timers -/

theorem linkOk_gapWithoutWork {s : State} (h : LinkOk s) : LinkOk (gapWithoutWork s) := by
  unfold gapWithoutWork
  split
  · rename_i ha
    split
    · exact h
    · exact linkOk_access h (by rw [ha]; decide) (by decide) h.slots
  all_goals exact h

theorem linkOk_cueLatenessExpiry {s : State} (h : LinkOk s) : Answers LinkOk (execCueLatenessExpiry s) := by
  refine answers_next ?_
  split
  · exact h
  · rename_i q hq
    have hr := takeLate_sublist hq
    have hu := linkOk_gapWithoutWork
      (linkOk_setQueue h (hr.length_le.trans h.queueLength) (cuesFirst_sublist h.queueOrder hr))
    exact linkOk_settle (linkOk_calm (linkOk_calm hu (tally_calm _ _ _)) (latch_calm _ _))

theorem linkOk_silenceTimerExpiry {s : State} (h : LinkOk s) : Answers LinkOk (execSilenceTimerExpiry s) := by
  refine answers_next ?_
  split
  · exact h
  · exact linkOk_settle_if h (linkOk_calm (linkOk_of_part (t := fallSilent s) h rfl) (latch_calm _ _))

theorem linkOk_ownAddressTimeExpiry {s : State} (h : LinkOk s) : Answers LinkOk (execOwnAddressTimeExpiry s) := by
  refine answers_next ?_
  split
  · exact h
  · split
    · exact linkOk_of_part h rfl
    · exact h

/-! ## Frames offered to the queue (R7, R9) -/

theorem linkOk_offerCue {s : State} (h : LinkOk s) (id dest : Nat) (body : List Byte) :
    LinkOk (offerCue id dest body s) := by
  unfold offerCue
  dsimp only
  have ho := cuesFirst_joinCue (f := .cue s.now id dest body) rfl
  split
  · rename_i hlt
    refine linkOk_requestChannel (linkOk_setQueue h ?_ (ho _))
    rw [joinCue_length]
    exact hlt
  · split
    · rename_i source rest hd
      have hl : (joinCue (.cue s.now id dest body) rest).length ≤ 8 := by
        rw [joinCue_length, dropReport_length hd]
        exact h.queueLength
      exact linkOk_of_part (linkOk_setQueue h hl (ho _)) rfl
    · exact linkOk_calm h (dropCue_calm s)

theorem linkOk_offerReport {s : State} (h : LinkOk s) (source : Nat) (body : List Byte) :
    LinkOk (offerReport source body s) := by
  unfold offerReport
  split
  · rename_i hlt
    refine linkOk_requestChannel (linkOk_setQueue h ?_ (cuesFirst_snoc h.queueOrder _ _))
    rw [List.length_append]
    exact hlt
  · exact linkOk_of_part h rfl

/-! ## Operations of other blocks leave the link alone -/

theorem mismatchEvents_calm (a b : LineJudgement) (s : State) : Calm s (mismatchEvents a b s) := by
  have one : ∀ (j : LineJudgement) (u : State), Calm u (if j = .mismatch then tally .lineMismatch 1 u else u) := by
    intro j u
    split
    · exact tally_calm _ _ _
    · exact Calm.refl u
  exact (one a s).trans (one b _)

theorem creepEvent_calm (seat : Nat) (before after : Bool) (s : State) : Calm s (creepEvent seat before after s) := by
  unfold creepEvent
  split
  · exact Calm.refl s
  · split
    · exact startDuration_calm _ _
    · exact endDuration_calm _ _

theorem seatOccurrences_calm (moving : Bool) (before after : SeatState) (s : State) :
    Calm s (seatOccurrences moving before after s) := by
  unfold seatOccurrences
  split
  · exact latch_calm _ _
  · split
    · exact latch_calm _ _
    · exact Calm.refl s

theorem seatReport_calm (moving : Bool) (positions : List Byte) (c : Settings) (before : Restraint) (s : State)
    (i : Nat) : Calm s (seatReport moving positions c before s i) := by
  unfold seatReport
  split
  · split
    · exact Calm.refl s
    · exact ((mismatchEvents_calm _ _ _).trans (creepEvent_calm _ _ _ _)).trans (seatOccurrences_calm _ _ _ _)
  · exact Calm.refl s

/-- R99: a window's end writes the lines and seats, and what they report is beside that `Calm`. -/
theorem windowEnd_calm (positions : List Byte) (s : State) : Calm (judgeSeats positions s) (windowEnd positions s) :=
  Calm.foldl _ (seatReport_calm _ _ _ _) _ _

theorem linkPart_windowEnd (positions : List Byte) (s : State) : linkPart (windowEnd positions s) = linkPart s :=
  (linkPart_calm (windowEnd_calm positions s)).trans rfl

theorem linkPart_handOn (r : Route) (res : TrackerResult) (s : State) : linkPart (handOn r res s) = linkPart s :=
  (linkPart_calmClaims (handOn_calm r res s)).trans rfl

theorem linkPart_applyAdvance (a : Nat) (s : State) : linkPart (applyAdvance a s) = linkPart s := by
  have h1 : linkPart (speedWithdraw (countAdvance a s)) = linkPart s :=
    (linkPart_calm (speedWithdraw_calm (countAdvance a s))).trans rfl
  unfold applyAdvance
  dsimp only
  split
  · exact h1
  · exact (linkPart_handOn _ _ _).trans h1

theorem linkPart_odometry (left right : Half) (s : State) : linkPart (odometry left right s) = linkPart s := by
  unfold odometry
  split
  · rfl
  · exact (linkPart_applyAdvance _ _).trans ((linkPart_calm (reportAll_calm _ (readCounts left right s))).trans rfl)

theorem linkPart_markerReport (code : Nat) (lateral : Int) (s : State) :
    linkPart (markerReport code lateral s) = linkPart s := by
  unfold markerReport
  split
  · rfl
  · split
    · exact linkPart_calm (tally_calm _ _ _)
    · split
      · exact linkPart_handOn _ _ _
      · split
        · exact linkPart_handOn _ _ _
        · exact linkPart_calm (tally_calm _ _ _)

theorem linkPart_releaseHold (p : Permit) (s : State) : linkPart (releaseHold p s) = linkPart s := by
  unfold releaseHold
  split <;> rfl

theorem linkPart_stopOrHold (d : Nat) (s : State) : linkPart (stopOrHold d s) = linkPart s := by
  unfold stopOrHold
  split <;> (try split) <;> rfl

theorem linkPart_formDemand (s : State) : linkPart (formDemand s).2 = linkPart s := by
  unfold formDemand
  dsimp only
  rw [linkPart_stopOrHold]
  split
  · exact (linkPart_calm (latch_calm 8 _)).trans (linkPart_releaseHold _ s)
  · exact linkPart_releaseHold _ s

theorem linkPart_controlInterval (s : State) : linkPart (controlInterval s) = linkPart s := by
  show linkPart (if (curvatureDemand s).2 then tally .steerLimit 1 (atOnce (formDemand s).2) else (formDemand s).2) = _
  split
  · exact (linkPart_calm ((atOnce_calm _).trans (tally_calm _ _ _))).trans (linkPart_formDemand s)
  · exact linkPart_formDemand s

theorem linkPart_becomeLost (address : Nat) (p : Peer) (s : State) : linkPart (becomeLost address p s) = linkPart s := by
  unfold becomeLost
  dsimp only
  split
  · exact (linkPart_calm (latch_calm 4 (setPeer address _ s))).trans rfl
  · rfl

theorem linkPart_becomeStale (address : Nat) (p : Peer) (s : State) :
    linkPart (becomeStale address p s) = linkPart s := by
  unfold becomeStale
  dsimp only
  split <;> rfl

theorem linkPart_forgetPeer (address : Nat) (s : State) : linkPart (forgetPeer address s) = linkPart s := by
  unfold forgetPeer
  split
  · rfl
  · split
    · rfl
    · dsimp only
      split <;> rfl

theorem linkPart_takeBeacon (source : Nat) (kind : StationKind) (body : List Byte) (s : State) :
    linkPart (takeBeacon source kind body s) = linkPart s := by
  unfold takeBeacon
  dsimp only
  split
  · rfl
  · rw [linkPart_calmClaims (handBeacon_calm _ _ _ _ _), linkPart_calm (framesLostEvent_calm _ _),
      linkPart_calm (sceneReplaced_calm _ _ _ _)]
    rfl

theorem linkPart_clearSteps (conditions : BitVec 32) (options : Byte) (s : State) :
    linkPart (clearSteps conditions options s) = linkPart s := by
  unfold clearSteps
  dsimp only
  rw [linkPart_foldl (f := fun a id => onRecord id Condition.clear a) (fun _ _ => rfl)]
  have step : ∀ (b : Bool) (f : State → State) (u : State), (∀ v, linkPart (f v) = linkPart v) →
      linkPart (if b then f u else u) = linkPart u := by
    intro b f u hf
    split
    · exact hf u
    · rfl
  rw [step _ freeSeats _ fun _ => rfl, step _ clearDiagnostics _ fun _ => rfl, step _ resetTallies _ fun _ => rfl,
    step _ releaseFirstFault _ fun _ => rfl]

theorem linkPart_ownClear (conditions : BitVec 32) (options : Byte) (s : State) :
    linkPart (ownClear conditions options s) = linkPart s := by
  have hrelatch : ∀ (a : State) (id : Nat), linkPart (relatch a id) = linkPart a := by
    intro a id
    unfold relatch
    split
    · exact linkPart_calm (latchHeld_calm _ _)
    · rfl
  unfold ownClear
  rw [linkPart_calm (handLevel_calm _), linkPart_foldl hrelatch, linkPart_clearSteps]

theorem linkPart_unlockSeat (named : Byte) (s : State) (i : Nat) : linkPart (unlockSeat named s i) = linkPart s := by
  unfold unlockSeat
  split
  · rfl
  · split <;> rfl

theorem linkPart_ownUnlock (source : Nat) (seats : Byte) (s : State) :
    linkPart (ownUnlock source seats s) = linkPart s := by
  unfold ownUnlock
  split
  · rfl
  · exact linkPart_foldl (linkPart_unlockSeat seats) _ s

theorem linkPart_ownStopZone (zone : Nat) (s : State) : linkPart (ownStopZone zone s) = linkPart s := by
  unfold ownStopZone
  split
  · exact linkPart_calm (latch_calm _ _)
  · rfl

theorem linkPart_ownStop (scope zone : Nat) (s : State) : linkPart (ownStop scope zone s) = linkPart s := by
  unfold ownStop
  split
  · exact linkPart_calm (latch_calm _ _)
  · exact linkPart_ownStopZone zone s
  · rfl

theorem linkPart_ownDispatch (source : Nat) (s : State) : linkPart (ownDispatch source s) = linkPart s := by
  unfold ownDispatch
  split <;> rfl

theorem linkPart_ownResume (source : Nat) (s : State) : linkPart (ownResume source s) = linkPart s := by
  unfold ownResume
  split
  · rfl
  · exact (linkPart_calm ((atOnce_calm (startRunning s)).trans (resumeAnnouncement_calm _))).trans rfl

theorem linkPart_ownRetireImmediate (s : State) : linkPart (ownRetireImmediate s) = linkPart s := by
  unfold ownRetireImmediate
  split
  · rfl
  · split <;> rfl

theorem linkPart_ownRetire (form : Nat) (s : State) : linkPart (ownRetire form s) = linkPart s := by
  unfold ownRetire
  split
  · exact linkPart_ownRetireImmediate s
  all_goals rfl

/-! ## Reception (R10) -/

/-- R186: the show restart puts the link to its show-restart values, and nothing is staged. -/
theorem linkOk_showRestart {s : State} (h : LinkOk s) : LinkOk (showRestart s) where
  kLow := Nat.le_refl 3
  kHigh := (by decide : 3 ≤ 6)
  slots := Nat.zero_le _
  queueLength := Nat.zero_le _
  queueOrder := rfl
  onAir := iff_of_false nofun nofun
  address := h.address
  staged := fun _ e => nomatch e

theorem linkOk_ownRestart {s : State} (h : LinkOk s) (source : Nat) : LinkOk (ownRestart source s) := by
  unfold ownRestart
  split
  · exact linkOk_of_part h rfl
  · exact linkOk_showRestart h

theorem linkOk_ownQuery {s : State} (h : LinkOk s) (source kind selector : Nat) :
    LinkOk (ownQuery source kind selector s) := by
  unfold ownQuery
  split
  · exact linkOk_of_part h rfl
  · exact linkOk_offerReport h _ _

theorem linkOk_command {owner : State → State} (ho : ∀ s, LinkOk s → LinkOk (owner s)) (kind : CommandKind)
    (source target : Nat) {s : State} (h : LinkOk s) : LinkOk (command kind source target owner s) := by
  unfold command
  split
  · exact h
  · split
    · exact linkOk_of_part h rfl
    · exact ho s h

/-- What a command row's owner does keeps the link. -/
theorem linkOk_commandOwner {s : State} (h : LinkOk s) (c : Instr) : LinkOk (commandOwner c s) := by
  unfold commandOwner
  split
  · exact linkOk_calm h (latch_calm 11 s)
  · exact linkOk_of_part h (linkPart_ownStopZone _ s)
  · exact linkOk_of_part h (linkPart_ownResume _ s)
  · exact linkOk_of_part h (linkPart_ownDispatch _ s)
  · exact linkOk_of_part h (linkPart_ownUnlock _ _ s)
  · exact linkOk_of_part h (linkPart_ownClear _ _ s)
  · exact linkOk_of_part h (linkPart_ownRetireImmediate s)
  · exact linkOk_of_part h rfl
  · exact linkOk_of_part h rfl
  · exact linkOk_of_part h (linkPart_forgetPeer _ s)
  · exact linkOk_ownQuery h _ _ _
  · exact linkOk_ownRestart h _
  · exact h

/-- Every command row keeps the link. -/
theorem linkOk_commandHeader {c : Instr} {kind : CommandKind} {source target : Nat} {s : State} (h : LinkOk s)
    (hc : commandHeader c = some (kind, source, target)) : Answers LinkOk (exec c s) := by
  rw [exec_commandHeader hc]
  refine answers_next (linkOk_settle ?_)
  have ht : LinkOk (carrierOff s) := linkOk_of_part h rfl
  unfold commandRow
  dsimp only
  split
  · exact ht
  · split
    · exact linkOk_calm ht (badFrame_calm _)
    · exact linkOk_command (fun _ hu => linkOk_commandOwner hu c) kind source target
        (s := validFrame (carrierOff s)) (linkOk_of_part ht rfl)

theorem linkOk_beaconFrameTaken {s : State} (h : LinkOk s) (f : Frame) : LinkOk (beaconFrameTaken f s) := by
  unfold beaconFrameTaken
  split
  · exact linkOk_calm (linkOk_of_part (t := hearOwn s) h rfl) (latch_calm 2 _)
  · split
    · exact h
    · exact linkOk_of_part h (linkPart_takeBeacon _ _ _ _)

theorem linkOk_route {s : State} (h : LinkOk s) (f : Frame) : LinkOk (route f s) := by
  have hc : ∀ (kind : CommandKind) (owner : State → State), (∀ u, linkPart (owner u) = linkPart u) →
      LinkOk (command kind f.source f.target owner s) := fun kind owner ho =>
    linkOk_command (fun u hu => linkOk_of_part hu (ho u)) kind _ _ h
  unfold route
  split
  · exact linkOk_beaconFrameTaken h f
  · exact hc _ _ (linkPart_ownStop _ _)
  · exact hc _ _ (linkPart_ownResume _)
  · exact hc _ _ (linkPart_ownDispatch _)
  · exact hc _ _ (linkPart_ownUnlock _ _)
  · exact hc _ _ (linkPart_ownClear _ _)
  · exact hc _ _ (linkPart_ownRetire _)
  · exact hc _ _ (linkPart_forgetPeer _)
  · exact linkOk_command (fun u hu => linkOk_ownQuery hu _ _ _) _ _ _ h
  · exact linkOk_command (fun u hu => linkOk_ownRestart hu _) _ _ _ h
  · exact h

theorem linkOk_receiveFrame {s : State} (h : LinkOk s) (frame : List Byte) :
    Answers LinkOk (execReceiveFrame frame s) := by
  refine answers_next (linkOk_settle ?_)
  have ht : LinkOk (carrierOff s) := linkOk_of_part h rfl
  unfold receive
  dsimp only
  split
  · exact ht
  · split
    · exact linkOk_calm ht (badFrame_calm _)
    · exact linkOk_route (s := validFrame (carrierOff s)) (linkOk_of_part ht rfl) _

/-! ## The pending list (R148) -/

theorem linkOk_executeCue {s : State} (h : LinkOk s) (id : Nat) : LinkOk (executeCue id s) := by
  unfold executeCue
  split
  · exact h
  · split
    · exact linkOk_offerCue h _ _ _
    · exact linkOk_calm h (soundStart_calm _ _ _ _ _ _)
    · exact linkOk_calm h (soundStop_calm _ _ _)
    · exact h

theorem linkOk_serveCue {s : State} (h : LinkOk s) (w : WaitingCue) : LinkOk (serveCue s w) :=
  linkOk_settle_if h (linkOk_executeCue (linkOk_of_part (t := unlist w s) h rfl) _)

theorem linkOk_servePending {s : State} (h : LinkOk s) : LinkOk (servePending s) := by
  unfold servePending
  generalize s.cues.waiting.filter (fun w => w.due ≤ s.now) = ws
  induction ws generalizing s with
  | nil => exact h
  | cons w ws ih => exact ih (linkOk_serveCue h w)

theorem linkOk_pendingAdvance {s : State} (h : LinkOk s) : Answers LinkOk (execPendingAdvance s) := by
  refine answers_next ?_
  split
  · exact h
  · exact linkOk_settle (linkOk_servePending (s := tick s) (linkOk_of_part h rfl))

/-! ## The resets and the load (R180 to R185) -/

/-- R17: the link after a full reset. -/
theorem linkOk_fullReset (s : State) : LinkOk (fullReset s) where
  kLow := Nat.le_refl 3
  kHigh := (by decide : 3 ≤ 6)
  slots := Nat.zero_le _
  queueLength := Nat.zero_le _
  queueOrder := rfl
  onAir := iff_of_false nofun nofun
  address := Nat.zero_le _
  staged := fun _ e => nomatch e

theorem linkPart_inputsAtReset (s : State) : linkPart (inputsAtReset s) = linkPart s := by
  have one : ∀ (b : Bool) (id : Nat) (u : State), linkPart (if b then latch id u else u) = linkPart u := by
    intro b id u
    split
    · exact linkPart_calm (latch_calm _ _)
    · rfl
  exact (one _ 10 _).trans (one _ 9 s)

theorem linkOk_fullResetEnd {s : State} (h : LinkOk s) : Answers LinkOk (execFullResetEnd s) :=
  answers_next (linkOk_settle_if h
    (linkOk_of_part h (linkPart_inputsAtReset { s with resetHeld := false })))

/-- R181: a staged station address is at most 31. -/
theorem takeBlock_address_le (block : List Byte) : (takeBlock block).value.address ≤ 31 := by
  show (addressValue (given16 block 0)).value ≤ 31
  unfold addressValue ranged clampTaken clampNat
  split
  · decide
  · dsimp only
    split
    · decide
    · split <;> omega

/-- Nothing is staged any more. -/
theorem linkOk_unstage {s : State} (h : LinkOk s) (p : LoadProgress) (e : Option Nat) :
    LinkOk { s with loader := { progress := p, listenExpiry := e, staged := none } } :=
  { h with staged := fun _ e => nomatch e }

theorem linkOk_enterFault {s : State} (h : LinkOk s) : LinkOk (enterFault s) := by
  have hf : LinkOk (loadFails s) := linkOk_of_part (linkOk_unstage h .failed none) rfl
  unfold enterFault
  split
  · exact hf
  · exact linkOk_beaconAtOnce hf

theorem linkOk_loadEnds {s : State} (h : LinkOk s) : LinkOk (loadEnds s) := linkOk_of_part h rfl

/-- R183: the values of a staged block come into force. -/
theorem linkOk_configure {s : State} (h : LinkOk s) {st : Staged} (ha : st.address ≤ 31) (clips : List (Option Clip)) :
    LinkOk (configure st clips s) := by
  have hv : LinkOk (takeValues st clips s) := { h with address := ha }
  exact linkOk_calm (linkOk_calm hv (Calm.foldl _ (fun a k => latch_calm (19 + k) a) _ _)) (handLevel_calm _)

theorem linkOk_noImage {s : State} (h : LinkOk s) {st : Staged} (ha : st.address ≤ 31) : LinkOk (noImage st s) :=
  linkOk_enterFault (linkOk_loadEnds (linkOk_configure (linkOk_calm h (latchClamped_calm _ _)) ha _))

theorem linkOk_withImage {s : State} (h : LinkOk s) {st : Staged} (ha : st.address ≤ 31) (image : List Byte) :
    LinkOk (withImage st image s) := by
  have hl : ∀ b (im : ImageRecords), LinkOk (takeRecords im (latchClamped b s)) := fun b im =>
    linkOk_of_part (linkOk_calm h (latchClamped_calm b s)) rfl
  exact linkOk_unstage (linkOk_loadEnds (linkOk_configure (hl _ _)
    (st := { st with settings := (checkAnnouncements
      (takeImage image st.settings.flashSize st.address).value.clips st.settings).value }) ha _)) _ _

theorem linkOk_passedBlock {s : State} (h : LinkOk s) (block : List Byte) : LinkOk (passedBlock block s) := by
  have ht : LinkOk (latchClamped (takeBlock block).clamped s) := linkOk_calm h (latchClamped_calm _ _)
  unfold passedBlock
  dsimp only
  split
  · exact linkOk_noImage ht (takeBlock_address_le block)
  · exact { ht with
      staged := fun st e => by
        injection e with e
        exact e ▸ takeBlock_address_le block }

theorem linkOk_configBlockRead {s : State} (h : LinkOk s) (block : List Byte) :
    Answers LinkOk (execConfigBlockRead block s) := by
  refine answers_next (linkOk_settle_if h ?_)
  split
  · exact linkOk_passedBlock h block
  · exact linkOk_enterFault (linkOk_loadEnds h)

theorem linkOk_imageLoadEnd {s : State} (h : LinkOk s) (image : List Byte) :
    Answers LinkOk (execImageLoadEnd image s) := by
  refine answers_next ?_
  split
  · exact h
  · rename_i st hst
    refine linkOk_settle_if h ?_
    split
    · exact linkOk_withImage h (h.staged st hst) image
    · exact linkOk_noImage h (h.staged st hst)

theorem linkPart_unfixedStart (s : State) : linkPart (unfixedStart s) = linkPart s := by
  unfold unfixedStart
  split
  · exact linkPart_calm (latch_calm _ _)
  · rfl

theorem linkPart_leaveStart (s : State) : linkPart (leaveStart s) = linkPart s := by
  unfold leaveStart
  rw [linkPart_calm (atOnce_calm _), linkPart_aside (applyLevel_aside _).1, linkPart_unfixedStart,
    linkPart_calm (atOnce_calm _)]
  rfl

theorem linkOk_listenExpiry {s : State} (h : LinkOk s) : Answers LinkOk (execListenExpiry s) := by
  refine answers_next ?_
  split
  · exact linkOk_settle_if h (linkOk_beaconAtOnce (linkOk_of_part h (linkPart_leaveStart s)))
  · exact h

/-! ## The remaining commands -/

theorem linkOk_peerStale {s : State} (h : LinkOk s) (address : Nat) : Answers LinkOk (execPeerStale address s) := by
  refine answers_next ?_
  split
  · exact h
  · refine linkOk_settle_if h (linkOk_of_part h ?_)
    split
    · rw [linkPart_becomeLost, linkPart_becomeStale]
    · exact linkPart_becomeStale _ _ s

theorem linkOk_peerLost {s : State} (h : LinkOk s) (address : Nat) : Answers LinkOk (execPeerLost address s) := by
  refine answers_next ?_
  split
  · exact h
  · exact linkOk_settle_if h (linkOk_of_part h (linkPart_becomeLost _ _ s))

theorem linkOk_odometryAdvance {s : State} (h : LinkOk s) (left right : Half) :
    Answers LinkOk (execOdometryAdvance left right s) :=
  answers_next (linkOk_settle (linkOk_of_part h (linkPart_odometry left right s)))

theorem linkOk_markerReport {s : State} (h : LinkOk s) (code : BitVec 12) (lateral : Half) (complete : Bool) :
    Answers LinkOk (execMarkerReport code lateral complete s) := by
  refine answers_next (linkOk_settle ?_)
  split
  · exact h
  · exact linkOk_of_part h (linkPart_markerReport _ _ s)

theorem linkOk_permitCompute {s : State} (h : LinkOk s) : Answers LinkOk (execPermitCompute s) := by
  refine answers_next ?_
  split
  · exact h
  · exact linkOk_settle (linkOk_of_part h (linkPart_controlInterval s))

/-- R76: a stop input that is asserted latches its condition, unless the reset input is held. -/
theorem linkOk_stopInput {s t : State} (h : LinkOk s) (e : linkPart t = linkPart s) (asserted held : Bool) (id : Nat) :
    Answers LinkOk (.next (if asserted then s else if held then t else settle (latch id t))) := by
  have ht := linkOk_of_part h e
  refine answers_next ?_
  split
  · exact h
  · split
    · exact ht
    · exact linkOk_settle (linkOk_calm ht (latch_calm _ _))

theorem linkOk_driveFault {s : State} (h : LinkOk s) : Answers LinkOk (execDriveFault s) :=
  linkOk_stopInput (t := { s with driveFaultIn := true }) h rfl s.driveFaultIn s.resetHeld 9

theorem linkOk_localStop {s : State} (h : LinkOk s) : Answers LinkOk (execLocalStop s) :=
  linkOk_stopInput (t := { s with localStopIn := true }) h rfl s.localStopIn s.resetHeld 10

theorem linkOk_claimIntervalEvaluation {s : State} (h : LinkOk s) : Answers LinkOk (execClaimIntervalEvaluation s) := by
  refine answers_next (linkOk_settle ?_)
  split
  · exact linkOk_of_part h (linkPart_calmClaims (evaluateClaims_calm s))
  · exact h

theorem linkOk_windowEnd {s : State} (h : LinkOk s) (positions : List Byte) :
    Answers LinkOk (execWindowEnd positions s) :=
  answers_next (linkOk_settle_if h (linkOk_of_part h (linkPart_windowEnd positions s)))

theorem linkOk_unlockPulseExpiry {s : State} (h : LinkOk s) (seat : Nat) :
    Answers LinkOk (execUnlockPulseExpiry seat s) := by
  refine answers_next ?_
  split
  · exact h
  · rename_i q _
    split
    · exact linkOk_settle_if h
        (linkOk_calm (linkOk_of_part (t := setSeat (seat - 1) q.pulseEnd s) h rfl) (latch_calm _ _))
    · exact h

theorem linkOk_durationThreshold {s : State} (h : LinkOk s) (key : DurationKey) (counter : Nat) :
    Answers LinkOk (execDurationThreshold key counter s) := by
  refine answers_next ?_
  split
  · exact h
  · exact linkOk_settle_if h (linkOk_calm h (offerThreshold_calm _ _ s))

theorem linkOk_watchExpiry {s : State} (h : LinkOk s) (cue : Nat) : Answers LinkOk (execWatchExpiry cue s) := by
  refine answers_next ?_
  split
  · exact h
  · split
    · exact linkOk_settle_if h (linkOk_calm h (watchOccurs_calm _ s))
    · exact h

theorem linkOk_outputFrame {s : State} (h : LinkOk s) : Answers LinkOk (execOutputFrame s) := by
  refine answers_next ?_
  split
  · exact h
  · exact linkOk_settle (linkOk_of_part h ((linkPart_calm (outputFrame_calm s)).trans rfl))

theorem linkOk_fetchComplete {s : State} (h : LinkOk s) (done : Completion) :
    Answers LinkOk (execFetchComplete done s) := by
  refine answers_next ?_
  split
  · exact h
  · exact linkOk_settle_if h (linkOk_of_part h rfl)

theorem linkOk_fetchTimeout {s : State} (h : LinkOk s) : Answers LinkOk (execFetchTimeout s) := by
  refine answers_next ?_
  split
  · exact h
  · exact linkOk_settle_if h (linkOk_calm h (readFails_calm _ s))

theorem linkOk_waitExpiry {s : State} (h : LinkOk s) (voice : Nat) : Answers LinkOk (execWaitExpiry voice s) := by
  refine answers_next ?_
  split
  · exact h
  · split
    · exact linkOk_settle_if h (linkOk_of_part h rfl)
    · exact h

theorem linkOk_lineTestSample {s : State} (h : LinkOk s) (returns : BitVec 12) :
    Answers LinkOk (execLineTestSample returns s) := by
  refine answers_next ?_
  split
  · exact linkOk_of_part h rfl
  · exact h

/-- Every command answers a next state and keeps the link. -/
theorem linkOk_exec (c : Instr) (s : State) (h : LinkOk s) : Answers LinkOk (exec c s) := by
  cases c with
  | fullReset => exact answers_next (linkOk_fullReset s)
  | configBlockRead block => exact linkOk_configBlockRead h block
  | imageLoadEnd image => exact linkOk_imageLoadEnd h image
  | listenExpiry => exact linkOk_listenExpiry h
  | carrierOn => exact linkOk_carrierOn h
  | gapMet => exact linkOk_gapMet h
  | countdownEnd => exact linkOk_countdownEnd h
  | transmissionEnd => exact linkOk_transmissionEnd h
  | beaconTimerExpiry => exact linkOk_beaconTimerExpiry h
  | cueLatenessExpiry => exact linkOk_cueLatenessExpiry h
  | silenceTimerExpiry => exact linkOk_silenceTimerExpiry h
  | ownAddressTimeExpiry => exact linkOk_ownAddressTimeExpiry h
  | receiveFrame frame => exact linkOk_receiveFrame h frame
  | stopRide source => exact linkOk_commandHeader h rfl
  | stopZone source zone => exact linkOk_commandHeader h rfl
  | resume source target => exact linkOk_commandHeader h rfl
  | dispatch source target => exact linkOk_commandHeader h rfl
  | unlock source target seats => exact linkOk_commandHeader h rfl
  | clear source target conditions options => exact linkOk_commandHeader h rfl
  | retireImmediate source target => exact linkOk_commandHeader h rfl
  | retireAtStation source target => exact linkOk_commandHeader h rfl
  | retireLift source target => exact linkOk_commandHeader h rfl
  | forget source target address => exact linkOk_commandHeader h rfl
  | query source target kind selector => exact linkOk_commandHeader h rfl
  | restart source target => exact linkOk_commandHeader h rfl
  | peerStale address => exact linkOk_peerStale h address
  | peerLost address => exact linkOk_peerLost h address
  | odometryAdvance left right => exact linkOk_odometryAdvance h left right
  | markerReport code lateral complete => exact linkOk_markerReport h code lateral complete
  | permitCompute => exact linkOk_permitCompute h
  | driveFault => exact linkOk_driveFault h
  | localStop => exact linkOk_localStop h
  | claimIntervalEvaluation => exact linkOk_claimIntervalEvaluation h
  | windowEnd positions => exact linkOk_windowEnd h positions
  | unlockPulseExpiry seat => exact linkOk_unlockPulseExpiry h seat
  | durationThreshold event counter => exact linkOk_durationThreshold h event counter
  | pendingAdvance => exact linkOk_pendingAdvance h
  | watchExpiry cue => exact linkOk_watchExpiry h cue
  | outputFrame => exact linkOk_outputFrame h
  | fetchComplete samples => exact linkOk_fetchComplete h samples
  | fetchTimeout => exact linkOk_fetchTimeout h
  | waitExpiry voice => exact linkOk_waitExpiry h voice
  | fullResetEnd => exact linkOk_fullResetEnd h
  | driveFaultInputReleased => exact answers_next (linkOk_of_part h rfl)
  | localStopInputReleased => exact answers_next (linkOk_of_part h rfl)
  | lineTestSample returns => exact linkOk_lineTestSample h returns

/-- Settles O4: every command keeps the link, and the queue of commands is no part of it. -/
theorem linkKept : Obligations.LinkKept :=
  kept_of_exec (fun _ _ h => linkOk_of_part h rfl) linkOk_exec

end Sys2Proof.RideLink
end

section
/-! The commands of the ride link one by one, and the state after a full reset. A command whose only effect is on the link
settles to itself when nothing is outstanding (`settle_link`), which makes it exact. -/
namespace Sys2Proof.RideLink
open Sys2Proof.Machine Sys2Proof.Safety

/-! ## Settling after a change of the link alone -/

/-- A standing judgement does not read the link or the free draws (R54 to R56). -/
theorem judgeStanding_link (s : State) (l : Link) (n : Nat) :
    judgeStanding { s with link := l, draws := n } = { judgeStanding s with link := l, draws := n } := by
  have hr : State.readyMet { s with link := l, draws := n } = s.readyMet := rfl
  unfold judgeStanding
  rw [hr]
  dsimp only
  split <;> (repeat' split) <;> rfl

/-- The fetch arbiter does not read the link or the free draws (R167). -/
theorem arbitrate_link (s : State) (l : Link) (n : Nat) :
    arbitrate { s with link := l, draws := n } = { arbitrate s with link := l, draws := n } := by
  have hl : State.loading { s with link := l, draws := n } = s.loading := rfl
  unfold arbitrate
  rw [hl]
  dsimp only
  split
  · rfl
  · split <;> rfl

/-- With nothing outstanding, a change of the link and the free draws leaves nothing outstanding. -/
theorem settle_link {s : State} (h : Still s) (l : Link) (n : Nat) :
    settle { s with link := l, draws := n } = { s with link := l, draws := n } :=
  Still.settle
    { notices := h.notices
      judged := by rw [judgeStanding_link, h.judged]
      granted := by rw [arbitrate_link, h.granted] }

/-! ## Reception of commands (R10, R12, R13) -/

theorem command_not_taken {kind : CommandKind} {source target : Nat} {owner : State → State} {s : State}
    (h : targetTaken kind s.link.ownAddress target = false) : command kind source target owner s = s := by
  rw [command, h]
  rfl

theorem command_refused {kind : CommandKind} {source target : Nat} {owner : State → State} {s : State}
    {reason : RefusalReason} (h : targetTaken kind s.link.ownAddress target = true)
    (ha : authority kind source s = some reason) :
    command kind source target owner s = refuse kind reason source s := by
  rw [command, h, ha]
  rfl

theorem command_accepted {kind : CommandKind} {source target : Nat} {owner : State → State} {s : State}
    (h : targetTaken kind s.link.ownAddress target = true) (ha : authority kind source s = none) :
    command kind source target owner s = owner s := by
  rw [command, h, ha]
  rfl

theorem commandRow_not_heard {kind : CommandKind} {source target : Nat} {owner : State → State} {s : State}
    (h : s.hears = false) : commandRow kind source target owner s = carrierOff s := by
  rw [commandRow, h]
  rfl

theorem commandRow_heard {kind : CommandKind} {source target : Nat} {owner : State → State} {s : State}
    (h : s.hears = true) (h1 : 1 ≤ source) (h2 : source ≤ 31) :
    commandRow kind source target owner s = command kind source target owner (received s) := by
  have hs : (source = 0 || 31 < source) = false := by
    simp only [Bool.or_eq_false_iff, decide_eq_false_iff_not]
    omega
  rw [commandRow, h, hs]
  rfl

theorem commandRow_accepted {kind : CommandKind} {source target : Nat} {owner : State → State} {s : State}
    (h : Accepted s kind source target) : commandRow kind source target owner s = owner (received s) := by
  rw [commandRow_heard h.heard h.low h.high]
  exact command_accepted (s := received s) h.mine h.allowed

/-- R12: no FRESH record of the source. -/
theorem authority_unknown {kind : CommandKind} {source : Nat} {s : State}
    (h : ∀ p, s.peer source = some p → p.state ≠ .fresh) : authority kind source s = some .unknownSource := by
  unfold authority
  cases hp : s.peer source with
  | none => rfl
  | some p => simp [h p hp]

/-- R12: a FRESH record of a kind that may not give the command. -/
theorem authority_wrongKind {kind : CommandKind} {source : Nat} {s : State} {p : Peer} (hp : s.peer source = some p)
    (hf : p.state = .fresh) (hk : mayCommand kind p.kind = false) :
    authority kind source s = some .wrongSourceKind := by
  simp [authority, hp, hf, hk]

/-- Settles O26, clause by clause: not heard, not taken by the target check, refused for want of a FRESH record, refused
for the kind of its source. -/
theorem commandsTurnedAway : Obligations.CommandsTurnedAway := by
  intro c kind source target s hc hstill
  rw [exec_commandHeader hc]
  refine ⟨fun hh => ?_, fun hh h1 h2 ht => ?_, fun hh h1 h2 ht hp => ?_, fun p hh h1 h2 ht hp hf hk => ?_⟩
  · rw [commandRow_not_heard hh]
    exact congrArg _ (settle_link hstill _ _)
  · rw [commandRow_heard hh h1 h2, command_not_taken (s := received s) ht]
    exact congrArg _ (settle_link hstill _ _)
  · rw [commandRow_heard hh h1 h2, command_refused (s := received s) ht (authority_unknown hp)]
    exact congrArg _ (settle_link hstill _ _)
  · rw [commandRow_heard hh h1 h2, command_refused (s := received s) ht (authority_wrongKind hp hf hk)]
    exact congrArg _ (settle_link hstill _ _)

/-! ## Channel access (R1, R2) -/

/-- Settles O17: each clause is the branch of the command's definition that its hypotheses choose. -/
theorem channelAccess : Obligations.ChannelAccess := by
  refine ⟨fun s hc ha => ?_, fun s hc ha => ?_, fun s hc ha => ?_, fun s hc ha => ?_, fun s ha hc hw => ?_,
    fun s ha hw => ?_⟩
  · show execCarrierOn s = _
    simp [execCarrierOn, hc, ha]
  · show execCarrierOn s = _
    cases h : s.link.access <;> simp_all [execCarrierOn]
  · refine ⟨Config.freeNat s.draws % 2 ^ s.link.k, Nat.le_sub_one_of_lt (Nat.mod_lt _ (Nat.two_pow_pos _)), ?_⟩
    show execGapMet s = _
    simp [execGapMet, hc, ha, enterCountdown, drawBelow]
  · show execGapMet s = _
    cases h : s.link.access <;> simp_all [execGapMet]
  · show execTransmissionEnd s = _
    simp [execTransmissionEnd, ha, hc, hw]
  · show execTransmissionEnd s = _
    simp [execTransmissionEnd, ha, hw]

theorem exec_countdownEnd {s : State} (h : s.link.access = .countdown) :
    exec .countdownEnd s = .next (settle (chooseFrame s)) := by
  show execCountdownEnd s = _
  rw [execCountdownEnd, h]

theorem chooseFrame_beacon {s : State} (h : s.link.beaconDue.isSome = true) : chooseFrame s = sendBeacon s := by
  rw [chooseFrame, if_pos h]

theorem chooseFrame_queue {s : State} (h : s.link.beaconDue = none) {f : QueuedFrame} {rest : List QueuedFrame}
    (hq : s.link.queue = f :: rest) : chooseFrame s = sendQueued f rest s := by
  rw [chooseFrame, h, hq]
  rfl

theorem chooseFrame_empty {s : State} (h : s.link.beaconDue = none) (hq : s.link.queue = []) :
    chooseFrame s = { s with link := { s.link with access := .idle, slots := 0 } } := by
  rw [chooseFrame, h, hq]
  rfl

/-- The state in which the Zone Claim Unit evaluates a beacon that has started (R5, R88). -/
def beaconStarted (s : State) : State := endDuration .backoffLong (countBeacon (startSending s.beaconFrame s))

theorem sendBeacon_eq (s : State) : sendBeacon s = evaluateClaims (beaconStarted s) := rfl

/-- R5, R88: a sent beacon changes the link and the claim list, and is beside that `Calm`. -/
theorem sendBeacon_calm (s : State) :
    Calm { s with link := (beaconStarted s).link, claims := (sendBeacon s).claims } (sendBeacon s) :=
  ((endDuration_calm .backoffLong (countBeacon (startSending s.beaconFrame s))).withClaims (sendBeacon s).claims).trans
    (evaluateClaims_calm (beaconStarted s))

/-- R88: a beacon's start judges every claim by the state before it. -/
theorem sendBeacon_claims {s : State} {r : Route} {x : Nat} (h : s.placed = some (r, x)) :
    (sendBeacon s).claims = s.claims.map fun c => (judgeClaim r s c).1 := by
  rw [sendBeacon_eq, evaluateClaims_claims (s := beaconStarted s) h, List.map_map]
  rfl

/-- Settles O18: a due beacon, a CUE at the head, a REPORT at the head, nothing to send. -/
theorem countdownEnds : Obligations.CountdownEnds := by
  refine ⟨fun s ha hd => ?_, fun s stamp id dest body rest ha hd hq => ?_, fun s dest body rest ha hd hq hs => ?_,
    fun s ha hd hq hs => ?_⟩
  · have hset := settle_aside (sendBeacon s)
    have hlink : (settle (sendBeacon s)).link = (beaconStarted s).link :=
      hset.outside.link.trans (sendBeacon_calm s).outside.link
    have hclaims : (settle (sendBeacon s)).claims = (sendBeacon s).claims := hset.outside.claims
    refine ⟨_, by rw [exec_countdownEnd ha, chooseFrame_beacon hd], hlink, fun hp => ?_, fun r x hp => ?_, ?_⟩
    · rw [hclaims, sendBeacon_eq, evaluateClaims_none (s := beaconStarted s) hp]
      rfl
    · rw [hclaims, sendBeacon_claims hp]
    · rw [hlink, hclaims]
      exact (sendBeacon_calm s).toAside.trans hset
  · refine ⟨_, by rw [exec_countdownEnd ha, chooseFrame_queue hd hq], ?_⟩
    exact (cueDone_calm id _).toAside.trans (settle_aside _)
  · rw [exec_countdownEnd ha, chooseFrame_queue hd hq]
    exact congrArg _ (settle_link hs _ _)
  · rw [exec_countdownEnd ha, chooseFrame_empty hd hq]
    exact congrArg _ (settle_link hs _ _)


/-! ## The request for the channel (R1) -/

/-- R1: nothing is asked for outside IDLE, and by a part that does not contend. -/
theorem requestChannel_stays {s : State} (h : s.link.access ≠ .idle ∨ s.contends = false) : requestChannel s = s := by
  unfold requestChannel
  rcases h with h | h <;> simp [h]

/-- R1: a request from IDLE before the gap is met. -/
theorem requestChannel_gap {s : State} (ha : s.link.access = .idle) (hc : s.contends = true)
    (hw : s.link.wantsToSend = true) (hq : (s.link.quiet && !s.link.carrier) = false) :
    requestChannel s = { s with link := { s.link with access := .gap } } := by
  simp [requestChannel, ha, hc, hw, hq]

/-- R1, last sentence: a request from IDLE after the gap. -/
theorem requestChannel_countdown {s : State} (ha : s.link.access = .idle) (hc : s.contends = true)
    (hw : s.link.wantsToSend = true) (hq : (s.link.quiet && !s.link.carrier) = true) :
    requestChannel s = enterCountdown s := by
  simp only [requestChannel, ha, hc, hw, hq]
  rfl

/-- A request changes the access state, the slots and the free draws alone. -/
theorem requestChannel_frame (s : State) : ∃ a n d,
    requestChannel s = { s with link := { s.link with access := a, slots := n }, draws := d } := by
  unfold requestChannel
  split
  · split
    · exact ⟨_, _, _, rfl⟩
    · exact ⟨_, s.link.slots, s.draws, rfl⟩
  · exact ⟨s.link.access, s.link.slots, s.draws, rfl⟩

theorem enterCountdown_slots (s : State) : (enterCountdown s).link.slots ≤ 2 ^ s.link.k - 1 :=
  Nat.le_sub_one_of_lt (Nat.mod_lt _ (Nat.two_pow_pos _))

/-! ## The beacon timer (R3, R4) -/

theorem exec_beaconTimerExpiry {s : State} {t0 : Nat} (h : s.link.beaconTimer = some t0) (ht : t0 ≤ s.now) :
    exec .beaconTimerExpiry s = .next (beaconBecomesDue (loadBeaconTimer s)) := by
  show execBeaconTimerExpiry s = _
  rw [execBeaconTimerExpiry, h]
  dsimp only
  rw [if_pos ht]

/-- R3, R4: the beacon has become due and its wait has started, before the channel is asked for. -/
def beaconWaits (s : State) : State :=
  startDuration .backoffLong { s with link := { s.link with beaconDue := some s.now } }

theorem beaconBecomesDue_due {s : State} {d : Nat} (h : s.link.beaconDue = some d) : beaconBecomesDue s = s := by
  rw [beaconBecomesDue, h]
  rfl

theorem beaconBecomesDue_none {s : State} (h : s.link.beaconDue = none) :
    beaconBecomesDue s = requestChannel (beaconWaits s) := by
  rw [beaconBecomesDue, h]
  rfl

theorem jitter_le_three (n : Nat) : n % 4 ≤ 3 := Nat.le_of_lt_succ (Nat.mod_lt _ (by decide))

/-- Settles O19: a beacon already due keeps the rest of the state; one not yet due asks for the channel. -/
theorem beaconTimerExpires : Obligations.BeaconTimerExpires := by
  intro s t0 ht hle
  refine ⟨_, exec_beaconTimerExpiry ht hle, ?_⟩
  cases hd : s.link.beaconDue with
  | some d =>
    rw [beaconBecomesDue_due (s := loadBeaconTimer s) hd]
    exact ⟨⟨_, jitter_le_three _, rfl⟩, hd, rfl, fun _ => ⟨rfl, rfl, rfl⟩, nofun, rfl⟩
  | none =>
    rw [beaconBecomesDue_none (s := loadBeaconTimer s) hd]
    refine ⟨?_, ?_, ?_, nofun, fun _ => ⟨?_, fun h => ?_, fun ha hc hq => ?_, fun ha hc hq => ?_⟩, ?_⟩
    case refine_5 =>
      rw [requestChannel_stays (s := beaconWaits (loadBeaconTimer s)) h]
      exact ⟨rfl, rfl⟩
    case refine_6 =>
      rw [requestChannel_gap (s := beaconWaits (loadBeaconTimer s)) ha hc rfl hq]
      exact ⟨rfl, rfl⟩
    case refine_7 =>
      rw [requestChannel_countdown (s := beaconWaits (loadBeaconTimer s)) ha hc rfl hq]
      exact ⟨rfl, enterCountdown_slots (beaconWaits (loadBeaconTimer s))⟩
    all_goals
      obtain ⟨a, n, d, e⟩ := requestChannel_frame (beaconWaits (loadBeaconTimer s))
      rw [e]
    case refine_1 => exact ⟨_, jitter_le_three _, rfl⟩
    all_goals rfl

/-! ## Expiries of the queue and the timers (R8, R11, R16) -/

/-- R8: the first CUE whose lateness expiry has come is the one taken out. -/
theorem takeLate_append {limit now stamp id dest : Nat} {body : List Byte} {before after : List QueuedFrame}
    (hb : ∀ st i d b, QueuedFrame.cue st i d b ∈ before → now < st + limit) (h : stamp + limit ≤ now) :
    takeLate limit now (before ++ .cue stamp id dest body :: after) = some (before ++ after) := by
  induction before with
  | nil => simp [takeLate, h]
  | cons f before ih =>
    have ih := ih fun st i d b hm => hb st i d b (List.mem_cons_of_mem f hm)
    cases f with
    | cue st i d b =>
      have hst : ¬ st + limit ≤ now := Nat.not_le.mpr (hb st i d b List.mem_cons_self)
      simp [takeLate, hst, ih]
    | report d b => simp [takeLate, ih]

theorem exec_cueLatenessExpiry {s : State} {q : List QueuedFrame}
    (h : takeLate s.settings.cueLateness s.now s.link.queue = some q) :
    exec .cueLatenessExpiry s = .next (settle (latch 17 (tally .cueLate 1 (gapWithoutWork (setQueue q s))))) := by
  show execCueLatenessExpiry s = _
  rw [execCueLatenessExpiry, h]

theorem gapWithoutWork_frame (s : State) : ∃ a, gapWithoutWork s = { s with link := { s.link with access := a } } := by
  unfold gapWithoutWork
  split
  · split
    · exact ⟨s.link.access, rfl⟩
    · exact ⟨_, rfl⟩
  all_goals exact ⟨s.link.access, rfl⟩

theorem gapWithoutWork_not_gap {s : State} (h : s.link.access ≠ .gap) : gapWithoutWork s = s := by
  unfold gapWithoutWork
  split
  · exact absurd (by assumption) h
  all_goals rfl

theorem gapWithoutWork_work {s : State} (hw : s.link.wantsToSend = true) : gapWithoutWork s = s := by
  unfold gapWithoutWork
  rw [hw]
  split <;> rfl

theorem gapWithoutWork_idle {s : State} (h : s.link.access = .gap) (hw : s.link.wantsToSend = false) :
    (gapWithoutWork s).link.access = .idle := by
  rw [gapWithoutWork, h, hw]
  rfl

/-- An occurrence that is settled is latched, whatever came before it in the command. -/
theorem latched_settle_latch {s u : State} {id : Nat} (hid : 1 ≤ id) (hle : id ≤ 25) (hs : TablesOk s)
    (hu : u.cond.records.length = s.cond.records.length) : Latched (settle (latch id u)) id :=
  (latch_latched id u hid (by rw [hu, hs.records]; exact hle)).aside (settle_aside _)

/-- Settles O20: the late CUE leaves the queue, and the access state follows what is left to send. -/
theorem cueLatenessExpires : Obligations.CueLatenessExpires := by
  intro s before after stamp id dest body hq hb hlate htab
  have htake : takeLate s.settings.cueLateness s.now s.link.queue = some (before ++ after) := by
    rw [hq]
    exact takeLate_append hb hlate
  obtain ⟨a, ha⟩ := gapWithoutWork_frame (setQueue (before ++ after) s)
  have htally := tally_calm .cueLate 1 (gapWithoutWork (setQueue (before ++ after) s))
  have haside := (htally.trans (latch_calm 17 _)).toAside.trans (settle_aside _)
  have hlink := haside.outside.link
  have hlen := htally.grows.length
  refine ⟨_, exec_cueLatenessExpiry htake, ?_, fun h => ?_, fun h hd hn => ?_, fun h hw => ?_,
    latched_settle_latch (by decide) (by decide) htab ?_, ?_⟩
  · rw [hlink, ha]
    rfl
  · rw [hlink, gapWithoutWork_not_gap (s := setQueue (before ++ after) s) h]
    rfl
  · rw [hlink]
    refine gapWithoutWork_idle (s := setQueue (before ++ after) s) h ?_
    simp [Link.wantsToSend, setQueue, hd, hn]
  · have hwants : (setQueue (before ++ after) s).link.wantsToSend = true := by
      simpa [Link.wantsToSend, setQueue] using hw
    rw [hlink, gapWithoutWork_work hwants]
    exact h
  · rw [hlen, ha]
    rfl
  · rw [hlink]
    rw [ha] at haside ⊢
    exact haside

/-- Settles O21: LINK_SILENT is latched with its cause, and the own-address time ends. -/
theorem linkTimersExpire : Obligations.LinkTimersExpire := by
  refine ⟨fun s t0 h ht htab => ?_, fun s t0 h ht => ?_⟩
  · have hexec : exec .silenceTimerExpiry s = .next (settle (latch 3 (fallSilent s))) := by
      show execSilenceTimerExpiry s = _
      rw [execSilenceTimerExpiry, h]
      dsimp only
      rw [if_pos ht]
    have haside : Aside (fallSilent s) (settle (latch 3 (fallSilent s))) :=
      (latch_calm 3 _).toAside.trans (settle_aside _)
    refine ⟨_, hexec, latched_settle_latch (by decide) (by decide) htab rfl, ?_, haside⟩
    show (settle (latch 3 (fallSilent s))).link.silent = true
    rw [haside.outside.link]
    rfl
  · show execOwnAddressTimeExpiry s = _
    rw [execOwnAddressTimeExpiry, h]
    dsimp only
    rw [if_pos (show Config.ownAddressLimit < s.now - t0 from ht)]

/-! ## Received frames (R10, R11) -/

theorem receive_not_heard {frame : List Byte} {s : State} (h : s.hears = false) : receive frame s = carrierOff s := by
  rw [receive, h]
  rfl

theorem receive_bad {frame : List Byte} {s : State} (h : s.hears = true) (hf : checkFrame frame = none) :
    receive frame s = badFrame (carrierOff s) := by
  rw [receive, h, hf]
  rfl

theorem receive_valid {frame : List Byte} {f : Frame} {s : State} (h : s.hears = true)
    (hf : checkFrame frame = some f) : receive frame s = route f (received s) := by
  rw [receive, h, hf]
  rfl

theorem route_beacon {f : Frame} (h : f.kind = 0) (s : State) : route f s = beaconFrameTaken f s := by
  rw [route, h]
  rfl

/-- R10: a CUE or REPORT of another station has no effect. -/
theorem route_other {f : Frame} (h : f.kind = 1 ∨ f.kind = 10) (s : State) : route f s = s := by
  unfold route
  rcases h with h | h <;> (rw [h]; rfl)

/-- Settles O22: not heard, failing a check, or of a kind without effect. -/
theorem framesDiscarded : Obligations.FramesDiscarded := by
  intro s frame
  refine ⟨fun hh hs => ?_, fun hh hf => ?_, fun f hh hf hk hs => ?_⟩
  · show Host.Outcome.next (settle (receive frame s)) = _
    rw [receive_not_heard hh]
    exact congrArg _ (settle_link hs _ _)
  · refine ⟨settle (receive frame s), rfl, ?_⟩
    rw [receive_bad hh hf]
    exact ⟨rfl, (badFrame_calm _).toAside.trans (settle_aside _)⟩
  · show Host.Outcome.next (settle (receive frame s)) = _
    rw [receive_valid hh hf, route_other hk]
    exact congrArg _ (settle_link hs _ _)

/-- R125, R128: a latched DIRECT condition puts the level at its own level or above. -/
theorem level_le_of_latched {s t : State} {id : Nat} (hs : TablesOk s) (hfix : fixedCondition id = true)
    (ha : Aside s t) (hl : Latched t id) : defaultLevels.getD (id - 1) 0 ≤ t.level := by
  obtain ⟨c, hc, hlevel, hdirect⟩ := hs.fixed id hfix
  obtain ⟨d, hd, hlatched⟩ := hl
  unfold ConditionUnit.record at hc hd
  split at hc
  · exact nomatch hc
  · rename_i hid
    rw [if_neg hid] at hd
    obtain ⟨d', hd', hgrows⟩ := ha.grows.records _ c hc
    obtain rfl : d' = d := Option.some.inj (hd'.symm.trans hd)
    have hw : d'.weight = defaultLevels.getD (id - 1) 0 := by
      simp [Condition.weight, hlatched, hgrows.announceFirst, hdirect, hgrows.level, hlevel]
    rw [← hw]
    exact weight_le_levelOf (List.mem_of_getElem? hd)

/-- Settles O23: DUPLICATE_ADDRESS is latched with its cause, and its level is 7. -/
theorem ownBeaconHeard : Obligations.OwnBeaconHeard := by
  intro s frame f hh hf hk hsrc htab
  have hexec : exec (.receiveFrame frame) s = .next (settle (latch 2 (hearOwn (received s)))) := by
    show Host.Outcome.next (settle (receive frame s)) = _
    rw [receive_valid hh hf, route_beacon hk, beaconFrameTaken,
      if_pos (show f.source = (received s).link.ownAddress from hsrc)]
    rfl
  have haside : Aside (hearOwn (received s)) (settle (latch 2 (hearOwn (received s)))) :=
    (latch_calm 2 _).toAside.trans (settle_aside _)
  have htab' : TablesOk (hearOwn (received s)) := { htab with }
  have hlatched : Latched (settle (latch 2 (hearOwn (received s)))) 2 :=
    latched_settle_latch (by decide) (by decide) htab' rfl
  refine ⟨_, hexec, hlatched, ?_, level_le_of_latched htab' (by decide) haside hlatched, haside⟩
  show (settle (latch 2 (hearOwn (received s)))).link.ownHeard.isSome = true
  rw [haside.outside.link]
  rfl

/-! ## Command frames (R187, R188) -/

/-- R10, R187: a frame made of a header, a body of its kind's length and the check word passes the four checks, and its
parts are read back. -/
theorem checkFrame_frameOf {kind source target : Nat} {body : List Byte} (hk : kind < 256) (h1 : 1 ≤ source)
    (h2 : source ≤ 31) (ht : target < 256) (hb : bodyLength kind body = some body.length) :
    checkFrame (frameOf kind source target body) = some ⟨kind, source, target, body⟩ := by
  generalize hhead : [byteOf kind, byteOf source, byteOf target] ++ body = head
  have hframe : frameOf kind source target body = head ++ bytes2 (crc16 head).toNat := by rw [← hhead]; rfl
  have hlen : head.length = body.length + 3 := by rw [← hhead, List.length_append]; exact Nat.add_comm 3 _
  have hat : ∀ i, i < 3 → byteAt (head ++ bytes2 (crc16 head).toNat) i
      = byteAt [byteOf kind, byteOf source, byteOf target] i := by
    intro i hi
    rw [Laws.byteAt_append_left _ _ _ (by omega), ← hhead, Laws.byteAt_append_left _ _ _ hi]
  have hkind : byteAt (head ++ bytes2 (crc16 head).toNat) 0 = kind := by
    rw [hat 0 (by decide)]
    exact (Laws.byteOf_toNat kind).trans (Nat.mod_eq_of_lt hk)
  have hsource : byteAt (head ++ bytes2 (crc16 head).toNat) 1 = source := by
    rw [hat 1 (by decide)]
    exact (Laws.byteOf_toNat source).trans (Nat.mod_eq_of_lt (by omega))
  have htarget : byteAt (head ++ bytes2 (crc16 head).toNat) 2 = target := by
    rw [hat 2 (by decide)]
    exact (Laws.byteOf_toNat target).trans (Nat.mod_eq_of_lt ht)
  have hall : (head ++ bytes2 (crc16 head).toNat).length = head.length + 2 := by
    rw [List.length_append, Laws.bytes2_length]
  have hbody : ((head ++ bytes2 (crc16 head).toNat).drop 3).take (head.length + 2 - 5) = body := by
    rw [show head.length + 2 - 5 = body.length by omega, ← hhead, List.append_assoc]
    exact List.take_left
  have hcheck := Laws.checkWord_append head
  rw [hframe, checkFrame, hall, if_neg (by omega)]
  dsimp only
  rw [hbody, hkind, hsource, htarget, Nat.add_sub_cancel, if_pos ⟨hb, hcheck, h1, h2⟩]

/-- R10: a frame that passes the checks and is routed to a command row's owner is taken as that row. -/
theorem exec_receiveFrame_frameOf {c : Instr} {kind : CommandKind} {code source target : Nat} {body : List Byte}
    {s : State} (hc : commandHeader c = some (kind, source, target)) (hk : code < 256) (h1 : 1 ≤ source)
    (h2 : source ≤ 31) (ht : target < 256) (hb : bodyLength code body = some body.length)
    (hr : ∀ u, route ⟨code, source, target, body⟩ u = command kind source target (commandOwner c) u) :
    exec (.receiveFrame (frameOf code source target body)) s = exec c s := by
  rw [exec_commandHeader hc]
  show Host.Outcome.next (settle (receive _ s)) = _
  cases hh : s.hears with
  | false => rw [receive_not_heard hh, commandRow_not_heard hh]
  | true => rw [receive_valid hh (checkFrame_frameOf hk h1 h2 ht hb), commandRow_heard hh h1 h2, hr]

/-- R187: a byte field is read back. -/
theorem byteOf_toNat_of_le {v : Nat} (h : v ≤ 255) : (byteOf v).toNat = v :=
  (Laws.byteOf_toNat v).trans (Nat.mod_eq_of_lt (by omega))

/-- R187: a CLEAR's condition set is read back from its four bytes. -/
theorem field4_bytes4 (v : BitVec 32) (rest : List Byte) : BitVec.ofNat 32 (field4 (bytes4 v.toNat ++ rest) 0) = v := by
  have hv := v.isLt
  have hfield : field4 (bytes4 v.toNat ++ rest) 0 = v.toNat := by
    show ((byteOf (v.toNat / 16777216)).toNat * 256 + (byteOf (v.toNat / 65536)).toNat) * 65536
      + ((byteOf (v.toNat / 256)).toNat * 256 + (byteOf v.toNat).toNat) = v.toNat
    simp only [Laws.byteOf_toNat]
    omega
  rw [hfield, BitVec.ofNat_toNat, BitVec.setWidth_eq]

theorem wfSource_iff {source : Nat} : wfSource source = true ↔ 1 ≤ source ∧ source ≤ 31 := by simp [wfSource]

theorem wfByte_iff {v : Nat} : wfByte v = true ↔ v ≤ 255 := by simp [wfByte]

/-- Settles O25, command row by command row: the body has its kind's length, and each operand is read back. -/
theorem commandFramesAgree : Obligations.CommandFramesAgree := by
  intro c frame s hwf hframe
  unfold commandFrame at hframe
  split at hframe
  case h_13 => exact nomatch hframe
  all_goals
    injection hframe with hframe
    subst hframe
    simp only [Instr.wf, Bool.and_eq_true, wfSource_iff, wfByte_iff] at hwf
  case h_1 => exact exec_receiveFrame_frameOf rfl (by decide) hwf.1 hwf.2 (by decide) rfl fun _ => rfl
  case h_2 =>
    obtain ⟨⟨h1, h2⟩, hz⟩ := hwf
    refine exec_receiveFrame_frameOf rfl (by decide) h1 h2 (by decide) rfl fun u => ?_
    show command .stop _ 0 (ownStop 1 (byteOf _).toNat) u = _
    rw [byteOf_toNat_of_le hz]
    rfl
  case h_6 source target conditions options =>
    obtain ⟨⟨h1, h2⟩, ht⟩ := hwf
    refine exec_receiveFrame_frameOf rfl (by decide) h1 h2 (by omega) rfl fun u => ?_
    show command .clear source target
      (ownClear (BitVec.ofNat 32 (field4 (bytes4 conditions.toNat ++ [options]) 0)) options) u = _
    rw [field4_bytes4]
    rfl
  case h_10 =>
    obtain ⟨⟨⟨h1, h2⟩, ht⟩, ha⟩ := hwf
    refine exec_receiveFrame_frameOf rfl (by decide) h1 h2 (by omega) rfl fun u => ?_
    show command .forget _ _ (forgetPeer (byteOf _).toNat) u = _
    rw [byteOf_toNat_of_le ha]
    rfl
  case h_11 source target kind selector =>
    obtain ⟨⟨⟨⟨h1, h2⟩, ht⟩, hk⟩, hs⟩ := hwf
    refine exec_receiveFrame_frameOf rfl (by decide) h1 h2 (by omega) rfl fun u => ?_
    show command .query source target (ownQuery source (byteOf kind).toNat (byteOf selector).toNat) u = _
    rw [byteOf_toNat_of_le hk, byteOf_toNat_of_le hs]
    rfl
  all_goals
    obtain ⟨⟨h1, h2⟩, ht⟩ := hwf
    exact exec_receiveFrame_frameOf rfl (by decide) h1 h2 (by omega) rfl fun _ => rfl

/-! ## QUERY (R15, R9) -/

theorem offerReport_full {source : Nat} {body : List Byte} {s : State} (h : 8 ≤ s.link.queue.length) :
    offerReport source body s = refuse .query .queueFull source s := by
  rw [offerReport, if_neg (show ¬ s.link.queue.length < Config.queueCap from Nat.not_lt.mpr h)]

theorem offerReport_room {source : Nat} {body : List Byte} {s : State} (h : s.link.queue.length < 8) :
    offerReport source body s = requestChannel (setQueue (s.link.queue ++ [.report source body]) s) := by
  rw [offerReport, if_pos (show s.link.queue.length < Config.queueCap from h)]
  rfl

/-- R15: a REPORT's contents do not depend on the link. -/
theorem reportBody_received (kind selector : Nat) (s : State) :
    reportBody kind selector (received s) = reportBody kind selector s := rfl

/-- Settles O34: refused in START, refused at a full queue, else answered. -/
theorem queryAnswered : Obligations.QueryAnswered := by
  intro s source target kind selector hacc hs
  have hexec : exec (.query source target kind selector) s
      = .next (settle (ownQuery source kind selector (received s))) := by
    rw [exec_commandHeader (c := .query source target kind selector) rfl, commandRow_accepted hacc]
    rfl
  have hoffer : s.motion.state ≠ .start → ownQuery source kind selector (received s)
      = offerReport source (reportBody kind selector s) (received s) := fun h => by
    rw [ownQuery, if_neg (show (received s).motion.state ≠ .start from h), reportBody_received]
  refine ⟨fun h => ?_, fun h hl => ?_, fun h hl => ?_⟩
  · rw [hexec, ownQuery, if_pos (show (received s).motion.state = .start from h)]
    exact congrArg _ (settle_link hs _ _)
  · rw [hexec, hoffer h, offerReport_full (s := received s) hl]
    exact congrArg _ (settle_link hs _ _)
  · have hroom := offerReport_room (source := source) (body := reportBody kind selector s) (s := received s) hl
    rw [hexec, hoffer h, hroom]
    generalize hu : setQueue ((received s).link.queue ++ [.report source (reportBody kind selector s)]) (received s) = u
    obtain ⟨a, n, d, e⟩ := requestChannel_frame u
    have hsettle : settle (requestChannel u) = requestChannel u := by
      rw [e, ← hu]
      exact settle_link hs _ _
    refine ⟨_, rfl, ?_, ?_, fun ha => ?_, ?_⟩ <;> rw [hsettle]
    · rw [e, ← hu]
      rfl
    · rw [e, ← hu]
      rfl
    · rw [requestChannel_stays (Or.inl (by rw [← hu]; exact ha)), ← hu]
      exact ⟨rfl, rfl⟩
    · rw [e, ← hu]
      rfl

/-! ## The state after a full reset -/

theorem peer_reset (a : Nat) : State.reset.peer a = none := by
  show (if a = 0 then none else ((List.replicate 31 (none : Option Peer))[a - 1]?).join) = none
  split
  · rfl
  · rw [List.getElem?_replicate]
    split <;> rfl

theorem voices_reset : ∀ v ∈ State.reset.sound.voices, v.state = .idle := fun v hv => by
  rw [List.eq_of_mem_replicate (a := Voice.idle) (n := 8) hv]
  rfl

theorem clips_reset : ∀ c ∈ State.reset.sound.clips, c = none := fun _ hc =>
  List.eq_of_mem_replicate (a := (none : Option Clip)) (n := 128) hc

/-- Settles O2, block by block: the small blocks are evaluated, the long tables are copies of one empty entry. -/
theorem resetState : Obligations.ResetState :=
  ⟨by decide, by decide, ⟨peer_reset, rfl, rfl⟩, by decide, by decide, by decide, ⟨rfl, rfl⟩,
    ⟨voices_reset, clips_reset, rfl, rfl⟩, rfl, rfl, rfl⟩

end Sys2Proof.RideLink
end

section
/-! What the Peer Table's operations do, once for each: the replacing of a record (R18), the watches of a scene (R152,
R153), the taking of a beacon (R19 to R23), ageing (R25, R28) and FORGET (R27). Each writes one record, and is beside it
`Calm` (a beacon but for the claim list). -/
namespace Sys2Proof.PeerTable
open Sys2Proof.Machine Sys2Proof.Safety Sys2Proof.RideLink

/-! ## The records -/

/-- R18: there is no record of address 0, so a filled record's address is not 0. -/
theorem ne_zero_of_peer {s : State} {a : Nat} {p : Peer} (h : s.peer a = some p) : a ≠ 0 := by
  rintro rfl
  exact nomatch h

theorem setPeer_eq {a : Nat} (ha : a ≠ 0) (p : Option Peer) (s : State) :
    setPeer a p s = { s with peers := s.peers.set (a - 1) p } := by
  rw [setPeer, if_neg ha]

theorem setPeer_length (a : Nat) (p : Option Peer) (s : State) : (setPeer a p s).peers.length = s.peers.length := by
  show (if a = 0 then s.peers else s.peers.set (a - 1) p).length = _
  split
  · rfl
  · exact List.length_set

/-- Of two records put at one address the last one stays. -/
theorem setPeer_setPeer (a : Nat) (p q : Option Peer) (s : State) : setPeer a q (setPeer a p s) = setPeer a q s := by
  by_cases ha : a = 0
  · subst ha
    rfl
  · simp only [setPeer_eq ha, List.set_set]

/-- The record of an address in the table is the one that was put there. -/
theorem peer_setPeer_same {a : Nat} {s : State} (ha : 1 ≤ a) (hle : a ≤ s.peers.length) (p : Option Peer) :
    (setPeer a p s).peer a = p := by
  have h0 : a ≠ 0 := by omega
  have hlt : a - 1 < s.peers.length := by omega
  simp [setPeer_eq h0, State.peer, h0, hlt]

/-- Every other record is as it was. -/
theorem peer_setPeer_other {a b : Nat} (hb : b ≠ a) (p : Option Peer) (s : State) :
    (setPeer a p s).peer b = s.peer b := by
  by_cases ha : a = 0
  · subst ha
    rfl
  · by_cases h0 : b = 0
    · subst h0
      rfl
    · have hne : a - 1 ≠ b - 1 := by omega
      simp [setPeer_eq ha, State.peer, h0, List.getElem?_set_ne hne]

/-- An EMPTY record stays EMPTY unless it is the one that is filled. -/
theorem peer_setPeer_empty {a b : Nat} {p : Option Peer} {s : State} (h : s.peer b = none) (hp : b = a → p = none) :
    (setPeer a p s).peer b = none := by
  by_cases hb : b = a
  · obtain rfl := hp hb
    subst hb
    by_cases h0 : b = 0
    · rw [State.peer, if_pos h0]
    · rw [setPeer_eq h0, State.peer, if_neg h0, List.getElem?_set_self']
      cases s.peers[b - 1]? <;> rfl
  · rw [peer_setPeer_other hb, h]

/-! ## Watches of a scene (R152, R153) -/

/-- The entry of a SCENE_TIME cue of the scene is changed. -/
theorem onSceneCues_scene {scene : Nat} {f : CueEntry → CueEntry} {s : State} {i : Nat} {c : CueEntry}
    (h : s.cues.table[i]? = some c) (ht : ∃ time, c.trigger = .sceneTime scene time) :
    (onSceneCues scene f s).cues.table[i]? = some (f c) := by
  obtain ⟨time, ht⟩ := ht
  simp [onSceneCues, h, ht]

/-- The entry of any other cue is as it was. -/
theorem onSceneCues_other {scene : Nat} {f : CueEntry → CueEntry} {s : State} {i : Nat} {c : CueEntry}
    (h : s.cues.table[i]? = some c) (ht : ∀ time, c.trigger ≠ .sceneTime scene time) :
    (onSceneCues scene f s).cues.table[i]? = some c := by
  simp only [onSceneCues, List.getElem?_map, h, Option.map_some, Option.some.injEq]
  split
  · rename_i a time htrigger
    refine if_neg fun e => ht time ?_
    rw [htrigger, e]
  all_goals rfl

/-! ## A beacon of another station (R19 to R23) -/

/-- R20, R21: the record of the beacon's own kind. -/
theorem sameKind_eq_some {before : Option Peer} {kind : StationKind} {p : Peer} :
    sameKind before kind = some p ↔ before = some p ∧ p.kind = kind := by
  cases before with
  | none => exact ⟨nofun, fun h => nomatch h.1⟩
  | some q =>
    rw [sameKind]
    constructor
    · intro h
      split at h
      · rename_i hk
        obtain rfl := Option.some.inj h
        exact ⟨rfl, hk⟩
      · exact nomatch h
    · rintro ⟨hq, hk⟩
      obtain rfl := Option.some.inj hq
      exact if_pos hk

/-- R20: a record of another kind gives nothing to the new one. -/
theorem sameKind_other {p : Peer} {kind : StationKind} (h : p.kind ≠ kind) : sameKind (some p) kind = none := if_neg h

/-- R21: no record of the beacon's kind has its sequence number. -/
def NoDuplicate (source : Nat) (kind : StationKind) (body : List Byte) (s : State) : Prop :=
  ∀ p, s.peer source = some p → p.kind = kind → seqDiff (byteAt body 1) p.lastSeq ≠ 0

/-- R21: a beacon with the sequence number of the record is discarded. -/
theorem takeBeacon_duplicate {source : Nat} {kind : StationKind} {body : List Byte} {s : State} {p : Peer}
    (hp : s.peer source = some p) (hk : p.kind = kind) (hd : seqDiff (byteAt body 1) p.lastSeq = 0) :
    takeBeacon source kind body s = s := by
  rw [takeBeacon, sameKind_eq_some.mpr ⟨hp, hk⟩]
  simp [hd]

/-- R19 to R22: the record that an accepted beacon leaves. -/
def beaconRecord (source : Nat) (kind : StationKind) (body : List Byte) (s : State) : Peer :=
  (acceptedPeer s kind (byteAt body 1) body (sameKind (s.peer source) kind)).1

/-- R19 to R22: a beacon that is no duplicate writes the record of its source and reports the frames lost, before it is
handed on. -/
def beaconWritten (source : Nat) (kind : StationKind) (body : List Byte) (s : State) : State :=
  framesLostEvent (acceptedPeer s kind (byteAt body 1) body (sameKind (s.peer source) kind)).2
    (sceneReplaced source (s.peer source) kind (setPeer source (some (beaconRecord source kind body s)) s))

theorem takeBeacon_accepted {source : Nat} {kind : StationKind} {body : List Byte} {s : State}
    (hn : NoDuplicate source kind body s) :
    takeBeacon source kind body s = handBeacon source kind body (s.peer source) (beaconWritten source kind body s) := by
  have hno : ¬ (sameKind (s.peer source) kind).any (fun p => decide (seqDiff (byteAt body 1) p.lastSeq = 0)) = true := by
    cases hs : sameKind (s.peer source) kind with
    | none => exact nofun
    | some p =>
      obtain ⟨hp, hk⟩ := sameKind_eq_some.mp hs
      simpa using hn p hp hk
  exact if_neg hno

theorem beaconWritten_calm (source : Nat) (kind : StationKind) (body : List Byte) (s : State) :
    Calm (setPeer source (some (beaconRecord source kind body s)) s) (beaconWritten source kind body s) :=
  (sceneReplaced_calm _ _ _ _).trans (framesLostEvent_calm _ _)

/-- R19 to R23: an accepted beacon writes the record of its source, and what follows changes no record. -/
theorem takeBeacon_accepted_calm {source : Nat} {kind : StationKind} {body : List Byte} {s : State}
    (hn : NoDuplicate source kind body s) :
    CalmClaims (setPeer source (some (beaconRecord source kind body s)) s) (takeBeacon source kind body s) := by
  rw [takeBeacon_accepted hn]
  exact (CalmClaims.of_calm (beaconWritten_calm _ _ _ _)).trans (handBeacon_calm _ _ _ _ _)

/-- R23: the handing on of a beacon that is no VEHICLE's leaves the claims. -/
theorem handBeacon_claims {kind : StationKind} (h : kind ≠ .vehicle) (source : Nat) (body : List Byte)
    (before : Option Peer) (s : State) : (handBeacon source kind body before s).claims = s.claims := by
  cases kind with
  | vehicle => exact absurd rfl h
  | scene => exact (eitherOrder_calm (cuesBeacon_calm _ _) (soundBeacon_calm _) s).outside.claims
  | load => rfl
  | operator => rfl

/-- R20: a new record and a new kind start with no frames lost. -/
theorem beaconRecord_framesLost_new {source : Nat} {kind : StationKind} {body : List Byte} {s : State}
    (h : sameKind (s.peer source) kind = none) : (beaconRecord source kind body s).framesLost = 0 := by
  rw [beaconRecord, h]
  rfl

/-- R21, R22: a record of the same kind counts the frames that its sequence step passes over. -/
theorem beaconRecord_framesLost_same {source : Nat} {kind : StationKind} {body : List Byte} {s : State} {p : Peer}
    (hp : s.peer source = some p) (hk : p.kind = kind) :
    (beaconRecord source kind body s).framesLost
      = min 255 (p.framesLost + (if 2 ≤ seqDiff (byteAt body 1) p.lastSeq ∧ seqDiff (byteAt body 1) p.lastSeq ≤ 127 then
        seqDiff (byteAt body 1) p.lastSeq - 1 else 0)) := by
  rw [beaconRecord, sameKind_eq_some.mpr ⟨hp, hk⟩]
  rfl

/-- R23, R88: the claims change only for a VEHICLE beacon. -/
theorem takeBeacon_claims {source : Nat} {kind : StationKind} {body : List Byte} {s : State} (hk : kind ≠ .vehicle)
    (hn : NoDuplicate source kind body s) :
    (takeBeacon source kind body s).claims = s.claims := by
  rw [takeBeacon_accepted hn, handBeacon_claims hk]
  exact (beaconWritten_calm _ _ _ _).outside.claims

/-! ## Ageing (R25, R28, R153) -/

theorem becomeStale_other {a : Nat} {p : Peer} (hk : p.kind ≠ .scene) (s : State) :
    becomeStale a p s = setPeer a (some { p with state := .stale }) s := if_neg hk

theorem becomeStale_scene {a : Nat} {p : Peer} (hk : p.kind = .scene) (s : State) :
    becomeStale a p s = sceneStale a (setPeer a (some { p with state := .stale }) s) := if_pos hk

theorem becomeLost_other {a : Nat} {p : Peer} (hk : p.kind ≠ .vehicle) (s : State) :
    becomeLost a p s = setPeer a (some { p with state := .lost }) s := if_neg hk

theorem becomeLost_vehicle {a : Nat} {p : Peer} (hk : p.kind = .vehicle) (s : State) :
    becomeLost a p s = latch 4 (setPeer a (some { p with state := .lost }) s) := if_pos hk

/-- R25: a record that goes on to LOST leaves no trace of having been STALE but in the watches. -/
theorem setPeer_becomeStale_calm (a : Nat) (p : Peer) (q : Option Peer) (s : State) :
    Calm (setPeer a q s) (setPeer a q (becomeStale a p s)) := by
  by_cases hk : p.kind = .scene
  · rw [becomeStale_scene hk]
    show Calm _ (sceneStale a (setPeer a q (setPeer a (some { p with state := .stale }) s)))
    rw [setPeer_setPeer]
    exact onSceneCues_calm _ _ _
  · rw [becomeStale_other hk, setPeer_setPeer]
    exact Calm.refl _

theorem becomeStale_calm (a : Nat) (p : Peer) (s : State) :
    Calm (setPeer a (some { p with state := .stale }) s) (becomeStale a p s) := by
  by_cases hk : p.kind = .scene
  · rw [becomeStale_scene hk]
    exact onSceneCues_calm _ _ _
  · rw [becomeStale_other hk]
    exact Calm.refl _

theorem becomeLost_calm (a : Nat) (p : Peer) (s : State) :
    Calm (setPeer a (some { p with state := .lost }) s) (becomeLost a p s) := by
  by_cases hk : p.kind = .vehicle
  · rw [becomeLost_vehicle hk]
    exact latch_calm 4 _
  · rw [becomeLost_other hk]
    exact Calm.refl _

/-! ## FORGET (R27, R152) -/

theorem forgetPeer_nothing {address : Nat} {s : State} (h : address = s.link.ownAddress ∨ s.peer address = none) :
    forgetPeer address s = s := by
  unfold forgetPeer
  rcases h with h | h
  · exact if_pos h
  · rw [h]
    split <;> rfl

theorem forgetPeer_filled {address : Nat} {s : State} {p : Peer} (ho : address ≠ s.link.ownAddress)
    (hp : s.peer address = some p) (hk : p.kind ≠ .scene) : forgetPeer address s = setPeer address none s := by
  rw [forgetPeer, if_neg ho, hp]
  exact if_neg hk

theorem forgetPeer_scene {address : Nat} {s : State} {p : Peer} (ho : address ≠ s.link.ownAddress)
    (hp : s.peer address = some p) (hk : p.kind = .scene) :
    forgetPeer address s = sceneGone address (setPeer address none s) := by
  rw [forgetPeer, if_neg ho, hp]
  exact if_pos hk

theorem forgetPeer_calm {address : Nat} {s : State} {p : Peer} (ho : address ≠ s.link.ownAddress)
    (hp : s.peer address = some p) : Calm (setPeer address none s) (forgetPeer address s) := by
  by_cases hk : p.kind = .scene
  · rw [forgetPeer_scene ho hp hk]
    exact onSceneCues_calm _ _ _
  · rw [forgetPeer_filled ho hp hk]
    exact Calm.refl _

end Sys2Proof.PeerTable
end

section
/-! What every step keeps of the Peer Table. `peersPart` is what `PeersOk` reads of the state: an operation of another
block leaves it as it was. A record is filled only outside the image load and never for the own address; the own address
changes only within the load, when every record is EMPTY. -/
namespace Sys2Proof.PeerTable
open Sys2Proof.Machine Sys2Proof.Safety Sys2Proof.RideLink

/-! ## What `PeersOk` reads -/

/-- The records, the own address, and the two items that say whether the image load runs. -/
def peersPart (s : State) : List (Option Peer) × Nat × Bool × LoadProgress :=
  (s.peers, s.link.ownAddress, s.resetHeld, s.loader.progress)

/-- The records and the own address stay, and no load begins. -/
theorem peersOk_of_loading {s t : State} (h : PeersOk s) (hp : t.peers = s.peers)
    (ho : t.link.ownAddress = s.link.ownAddress) (hl : t.loading = true → s.loading = true) : PeersOk t := by
  have hpeer : ∀ a, t.peer a = s.peer a := fun a => by rw [State.peer, hp]; rfl
  exact
    { count := hp ▸ h.count
      loading := fun e a => (hpeer a).trans (h.loading (hl e) a)
      own := by rw [hpeer, ho]; exact h.own }

theorem peersOk_of_part {s t : State} (h : PeersOk s) (e : peersPart t = peersPart s) : PeersOk t := by
  simp only [peersPart, Prod.mk.injEq] at e
  obtain ⟨hp, ho, hr, hd⟩ := e
  exact peersOk_of_loading h hp ho fun hl => by rwa [State.loading, hr, hd] at hl

/-- R30: with every record EMPTY the own address does not matter. -/
theorem peersOk_of_empty {t : State} (hc : t.peers.length = 31) (he : ∀ a, t.peer a = none) : PeersOk t :=
  ⟨hc, fun _ => he, he _⟩

/-- R30: what leaves the records alone during the image load may give the part another address. -/
theorem peersOk_of_load {s t : State} (h : PeersOk s) (hl : s.loading = true) (hp : t.peers = s.peers) : PeersOk t :=
  peersOk_of_empty (hp ▸ h.count) fun a => by
    rw [State.peer, hp]
    exact h.loading hl a

theorem peersOk_replicate {t : State} (hp : t.peers = List.replicate 31 none) : PeersOk t :=
  peersOk_of_empty (by rw [hp]; rfl) fun a => by
    rw [State.peer, hp]
    exact peer_reset a

theorem peersPart_aside {s t : State} (h : Aside s t) : peersPart t = peersPart s := by
  unfold peersPart
  rw [h.outside.peers, h.outside.link, h.outside.resetHeld, h.outside.loader]

theorem peersPart_calm {s t : State} (h : Calm s t) : peersPart t = peersPart s := peersPart_aside h.toAside

theorem peersPart_calmClaims {s t : State} (h : CalmClaims s t) : peersPart t = peersPart s :=
  (peersPart_calm (s := { s with claims := t.claims }) h).trans rfl

theorem peersPart_foldl {α : Type} {f : State → α → State} (hf : ∀ a x, peersPart (f a x) = peersPart a) (xs : List α)
    (s : State) : peersPart (xs.foldl f s) = peersPart s := by
  induction xs generalizing s with
  | nil => rfl
  | cons x xs ih => exact (ih (f s x)).trans (hf s x)

theorem peersPart_settle (s : State) : peersPart (settle s) = peersPart s := peersPart_aside (settle_aside s)

theorem peersPart_if {c : Prop} [Decidable c] {s t u : State} (ht : peersPart t = peersPart s)
    (hu : peersPart u = peersPart s) : peersPart (if c then t else u) = peersPart s := by
  split
  · exact ht
  · exact hu

/-- A command that does nothing unless a test holds, and else settles what it has done. -/
theorem peersPart_settle_if {c : Prop} [Decidable c] {s u : State} (h : peersPart u = peersPart s) :
    peersPart (if c then settle u else s) = peersPart s :=
  peersPart_if ((peersPart_settle u).trans h) rfl

theorem peersOk_settle {s : State} (h : PeersOk s) : PeersOk (settle s) := peersOk_of_part h (peersPart_settle s)

theorem peersOk_settle_if {c : Prop} [Decidable c] {s u : State} (h : PeersOk s) (hu : PeersOk u) :
    PeersOk (if c then settle u else s) := by
  split
  · exact peersOk_settle hu
  · exact h

/-! ## The Link Controller leaves the records alone -/

theorem peersPart_requestChannel (s : State) : peersPart (requestChannel s) = peersPart s := by
  obtain ⟨a, n, d, e⟩ := requestChannel_frame s
  rw [e]
  rfl

theorem peersPart_beaconBecomesDue (s : State) : peersPart (beaconBecomesDue s) = peersPart s := by
  unfold beaconBecomesDue
  exact peersPart_if rfl ((peersPart_requestChannel _).trans rfl)

theorem peersPart_beaconAtOnce (s : State) : peersPart (beaconAtOnce s) = peersPart s :=
  (peersPart_beaconBecomesDue (loadBeaconTimer s)).trans rfl

theorem peersPart_sendQueued (f : QueuedFrame) (rest : List QueuedFrame) (s : State) :
    peersPart (sendQueued f rest s) = peersPart s := by
  cases f with
  | cue stamp id dest body => exact (peersPart_calm (cueDone_calm id _)).trans rfl
  | report dest body => rfl

theorem peersPart_chooseFrame (s : State) : peersPart (chooseFrame s) = peersPart s := by
  unfold chooseFrame
  split
  · exact (peersPart_calmClaims (evaluateClaims_calm (beaconStarted s))).trans rfl
  · split
    · rfl
    · exact peersPart_sendQueued _ _ s

theorem peersPart_gapWithoutWork (s : State) : peersPart (gapWithoutWork s) = peersPart s := by
  obtain ⟨a, e⟩ := gapWithoutWork_frame s
  rw [e]
  rfl

theorem peersPart_offerCue (id dest : Nat) (body : List Byte) (s : State) :
    peersPart (offerCue id dest body s) = peersPart s := by
  unfold offerCue
  dsimp only
  split
  · exact (peersPart_requestChannel _).trans rfl
  · split
    · rfl
    · exact peersPart_calm (dropCue_calm s)

theorem peersPart_ownQuery (source kind selector : Nat) (s : State) :
    peersPart (ownQuery source kind selector s) = peersPart s := by
  unfold ownQuery offerReport
  exact peersPart_if rfl (peersPart_if ((peersPart_requestChannel _).trans rfl) rfl)

/-! ## Motion, position, restraint and conditions leave the records alone -/

theorem peersPart_handOn (r : Route) (res : TrackerResult) (s : State) : peersPart (handOn r res s) = peersPart s :=
  (peersPart_calmClaims (handOn_calm r res s)).trans rfl

theorem peersPart_odometry (left right : Half) (s : State) : peersPart (odometry left right s) = peersPart s := by
  have advance : ∀ (a : Nat) (u : State), peersPart (applyAdvance a u) = peersPart u := by
    intro a u
    have hcount : peersPart (speedWithdraw (countAdvance a u)) = peersPart u :=
      (peersPart_calm (speedWithdraw_calm (countAdvance a u))).trans rfl
    unfold applyAdvance
    dsimp only
    split
    · exact hcount
    · exact (peersPart_handOn _ _ _).trans hcount
  unfold odometry
  split
  · rfl
  · exact (advance _ _).trans ((peersPart_calm (reportAll_calm _ (readCounts left right s))).trans rfl)

theorem peersPart_markerReport (code : Nat) (lateral : Int) (s : State) :
    peersPart (markerReport code lateral s) = peersPart s := by
  unfold markerReport
  split
  · rfl
  · split
    · exact peersPart_calm (tally_calm _ _ _)
    · split
      · exact peersPart_handOn _ _ _
      · exact peersPart_if (peersPart_handOn _ _ _) (peersPart_calm (tally_calm _ _ _))

theorem peersPart_formDemand (s : State) : peersPart (formDemand s).2 = peersPart s := by
  have release : ∀ p, peersPart (releaseHold p s) = peersPart s := fun p => by
    unfold releaseHold
    exact peersPart_if rfl rfl
  have stop : ∀ (d : Nat) (u : State), peersPart (stopOrHold d u) = peersPart u := fun d u => by
    unfold stopOrHold
    split <;> (try split) <;> rfl
  unfold formDemand
  dsimp only
  rw [stop]
  exact peersPart_if ((peersPart_calm (latch_calm 8 _)).trans (release _)) (release _)

theorem peersPart_controlInterval (s : State) : peersPart (controlInterval s) = peersPart s :=
  peersPart_if (c := (curvatureDemand s).2 = true) (t := tally .steerLimit 1 (atOnce (formDemand s).2))
    ((peersPart_calm ((atOnce_calm _).trans (tally_calm _ _ _))).trans (peersPart_formDemand s)) (peersPart_formDemand s)

theorem peersPart_ownClear (conditions : BitVec 32) (options : Byte) (s : State) :
    peersPart (ownClear conditions options s) = peersPart s := by
  have hrelatch : ∀ (a : State) (id : Nat), peersPart (relatch a id) = peersPart a := fun a id => by
    unfold relatch
    exact peersPart_if (peersPart_calm (latchHeld_calm _ _)) rfl
  have step : ∀ (b : Bool) (f : State → State) (u : State), (∀ v, peersPart (f v) = peersPart v) →
      peersPart (if b then f u else u) = peersPart u := fun b f u hf => peersPart_if (hf u) rfl
  unfold ownClear
  rw [peersPart_calm (handLevel_calm _), peersPart_foldl hrelatch]
  unfold clearSteps
  dsimp only
  rw [peersPart_foldl (f := fun a id => onRecord id Condition.clear a) fun _ _ => rfl,
    step _ freeSeats _ fun _ => rfl, step _ clearDiagnostics _ fun _ => rfl, step _ resetTallies _ fun _ => rfl,
    step _ releaseFirstFault _ fun _ => rfl]

theorem peersPart_ownUnlock (source : Nat) (seats : Byte) (s : State) :
    peersPart (ownUnlock source seats s) = peersPart s := by
  unfold ownUnlock
  split
  · rfl
  · refine peersPart_foldl (fun u i => ?_) _ s
    unfold unlockSeat
    split
    · rfl
    · split <;> rfl

theorem peersPart_ownStopZone (zone : Nat) (s : State) : peersPart (ownStopZone zone s) = peersPart s := by
  unfold ownStopZone
  exact peersPart_if (peersPart_calm (latch_calm _ _)) rfl

theorem peersPart_ownStop (scope zone : Nat) (s : State) : peersPart (ownStop scope zone s) = peersPart s := by
  unfold ownStop
  split
  · exact peersPart_calm (latch_calm _ _)
  · exact peersPart_ownStopZone zone s
  · rfl

theorem peersPart_ownDispatch (source : Nat) (s : State) : peersPart (ownDispatch source s) = peersPart s := by
  unfold ownDispatch
  split <;> rfl

theorem peersPart_ownResume (source : Nat) (s : State) : peersPart (ownResume source s) = peersPart s := by
  unfold ownResume
  split
  · rfl
  · exact (peersPart_calm ((atOnce_calm (startRunning s)).trans (resumeAnnouncement_calm _))).trans rfl

theorem peersPart_ownRetireImmediate (s : State) : peersPart (ownRetireImmediate s) = peersPart s := by
  unfold ownRetireImmediate
  split
  · rfl
  · split <;> rfl

theorem peersPart_ownRetire (form : Nat) (s : State) : peersPart (ownRetire form s) = peersPart s := by
  unfold ownRetire
  split
  · exact peersPart_ownRetireImmediate s
  all_goals rfl

/-! ## The records change (R19, R25, R27, R186) -/

/-- A record is filled outside the image load alone, and the own record never. -/
theorem peersOk_setPeer {s : State} (h : PeersOk s) {a : Nat} {p : Option Peer} (hl : s.loading = true → p = none)
    (ho : a = s.link.ownAddress → p = none) : PeersOk (setPeer a p s) where
  count := (setPeer_length a p s).trans h.count
  loading := fun e b => peer_setPeer_empty (h.loading e b) fun _ => hl e
  own := peer_setPeer_empty h.own fun e => ho e.symm

theorem not_loading_of_peer {s : State} (h : PeersOk s) {a : Nat} {p : Peer} (hp : s.peer a = some p) :
    s.loading = false :=
  Bool.eq_false_iff.mpr fun hl => nomatch hp.symm.trans (h.loading hl a)

theorem ne_own_of_peer {s : State} (h : PeersOk s) {a : Nat} {p : Peer} (hp : s.peer a = some p) :
    a ≠ s.link.ownAddress := by
  rintro rfl
  exact nomatch hp.symm.trans h.own

/-- Outside the image load, the record of another station may be any. -/
theorem peersOk_fill {s : State} (h : PeersOk s) {a : Nat} (hl : s.loading = false) (ho : a ≠ s.link.ownAddress)
    (p : Option Peer) : PeersOk (setPeer a p s) :=
  peersOk_setPeer h (fun e => absurd (hl.symm.trans e) (by decide)) fun e => absurd e ho

theorem peersOk_becomeLost {s : State} (h : PeersOk s) {a : Nat} (hl : s.loading = false) (ho : a ≠ s.link.ownAddress)
    (p : Peer) : PeersOk (becomeLost a p s) :=
  peersOk_of_part (peersOk_fill h hl ho _) (peersPart_calm (becomeLost_calm a p s))

theorem peersOk_forgetPeer {s : State} (h : PeersOk s) (address : Nat) : PeersOk (forgetPeer address s) := by
  by_cases hn : address = s.link.ownAddress ∨ s.peer address = none
  · rw [forgetPeer_nothing hn]
    exact h
  · obtain ⟨ho, hne⟩ := not_or.mp hn
    obtain ⟨p, hp⟩ := Option.ne_none_iff_exists'.mp hne
    exact peersOk_of_part (peersOk_setPeer h (fun _ => rfl) fun _ => rfl) (peersPart_calm (forgetPeer_calm ho hp))

theorem peersOk_takeBeacon {s : State} (h : PeersOk s) (hl : s.loading = false) {source : Nat}
    (ho : source ≠ s.link.ownAddress) (kind : StationKind) (body : List Byte) :
    PeersOk (takeBeacon source kind body s) := by
  by_cases hn : NoDuplicate source kind body s
  · exact peersOk_of_part (peersOk_fill h hl ho _) (peersPart_calmClaims (takeBeacon_accepted_calm hn))
  · obtain ⟨p, hp, hk, hd⟩ : ∃ p, s.peer source = some p ∧ p.kind = kind ∧ seqDiff (byteAt body 1) p.lastSeq = 0 := by
      simpa [NoDuplicate] using hn
    rw [takeBeacon_duplicate hp hk hd]
    exact h

theorem peersOk_ownRestart {s : State} (h : PeersOk s) (source : Nat) : PeersOk (ownRestart source s) := by
  unfold ownRestart
  split
  · exact peersOk_of_part h rfl
  · exact peersOk_replicate rfl

/-! ## Reception (R10) -/

/-- R10: nothing is heard during the image load. -/
theorem not_loading_of_hears {s : State} (h : s.hears = true) : s.loading = false := by
  simp only [State.hears, State.receiverOn, Bool.and_eq_true, Bool.not_eq_true'] at h
  exact h.1.1

theorem peersOk_command {owner : State → State} (ho : ∀ s, PeersOk s → PeersOk (owner s)) (kind : CommandKind)
    (source target : Nat) {s : State} (h : PeersOk s) : PeersOk (command kind source target owner s) := by
  unfold command
  split
  · exact h
  · split
    · exact peersOk_of_part h rfl
    · exact ho s h

/-- What a command row's owner does keeps the records. -/
theorem peersOk_commandOwner {s : State} (h : PeersOk s) (c : Instr) : PeersOk (commandOwner c s) := by
  unfold commandOwner
  split
  · exact peersOk_of_part h (peersPart_calm (latch_calm 11 s))
  · exact peersOk_of_part h (peersPart_ownStopZone _ s)
  · exact peersOk_of_part h (peersPart_ownResume _ s)
  · exact peersOk_of_part h (peersPart_ownDispatch _ s)
  · exact peersOk_of_part h (peersPart_ownUnlock _ _ s)
  · exact peersOk_of_part h (peersPart_ownClear _ _ s)
  · exact peersOk_of_part h (peersPart_ownRetireImmediate s)
  · exact peersOk_of_part h rfl
  · exact peersOk_of_part h rfl
  · exact peersOk_forgetPeer h _
  · exact peersOk_of_part h (peersPart_ownQuery _ _ _ s)
  · exact peersOk_ownRestart h _
  · exact h

/-- Every command row keeps the records. -/
theorem peersOk_commandHeader {c : Instr} {kind : CommandKind} {source target : Nat} {s : State} (h : PeersOk s)
    (hc : commandHeader c = some (kind, source, target)) : Answers PeersOk (exec c s) := by
  rw [exec_commandHeader hc]
  refine answers_next (peersOk_settle ?_)
  have ht : PeersOk (carrierOff s) := peersOk_of_part h rfl
  unfold commandRow
  dsimp only
  split
  · exact ht
  · split
    · exact peersOk_of_part ht (peersPart_calm (badFrame_calm _))
    · exact peersOk_command (fun _ hu => peersOk_commandOwner hu c) kind source target
        (s := validFrame (carrierOff s)) (peersOk_of_part ht rfl)

theorem peersOk_beaconFrameTaken {s : State} (h : PeersOk s) (hl : s.loading = false) (f : Frame) :
    PeersOk (beaconFrameTaken f s) := by
  unfold beaconFrameTaken
  split
  · exact peersOk_of_part h ((peersPart_calm (latch_calm 2 (hearOwn s))).trans rfl)
  · split
    · exact h
    · exact peersOk_takeBeacon h hl ‹_› _ _

theorem peersOk_route {s : State} (h : PeersOk s) (hl : s.loading = false) (f : Frame) : PeersOk (route f s) := by
  have hc : ∀ (kind : CommandKind) (owner : State → State), (∀ u, peersPart (owner u) = peersPart u) →
      PeersOk (command kind f.source f.target owner s) := fun kind owner ho =>
    peersOk_command (fun u hu => peersOk_of_part hu (ho u)) kind _ _ h
  unfold route
  split
  · exact peersOk_beaconFrameTaken h hl f
  · exact hc _ _ (peersPart_ownStop _ _)
  · exact hc _ _ (peersPart_ownResume _)
  · exact hc _ _ (peersPart_ownDispatch _)
  · exact hc _ _ (peersPart_ownUnlock _ _)
  · exact hc _ _ (peersPart_ownClear _ _)
  · exact hc _ _ (peersPart_ownRetire _)
  · exact peersOk_command (fun u hu => peersOk_forgetPeer hu _) _ _ _ h
  · exact hc _ _ (peersPart_ownQuery _ _ _)
  · exact peersOk_command (fun u hu => peersOk_ownRestart hu _) _ _ _ h
  · exact h

theorem peersOk_receive {s : State} (h : PeersOk s) (frame : List Byte) : PeersOk (receive frame s) := by
  cases hh : s.hears with
  | false =>
    rw [receive_not_heard hh]
    exact peersOk_of_part h rfl
  | true =>
    cases hf : checkFrame frame with
    | none =>
      rw [receive_bad hh hf]
      exact peersOk_of_part h ((peersPart_calm (badFrame_calm (carrierOff s))).trans rfl)
    | some f =>
      rw [receive_valid hh hf]
      exact peersOk_route (s := received s) (peersOk_of_part h rfl)
        (show s.loading = false from not_loading_of_hears hh) f

/-! ## The image load (R181 to R185) -/

theorem loading_of_progress {s : State} (h : s.loader.progress = .loading) : s.loading = true := by
  simp [State.loading, h]

theorem enterFault_peers (s : State) : (enterFault s).peers = s.peers := by
  unfold enterFault
  split
  · rfl
  · exact congrArg Prod.fst (peersPart_beaconAtOnce (loadFails s))

theorem configure_peers (st : Staged) (clips : List (Option Clip)) (s : State) : (configure st clips s).peers = s.peers :=
  ((Calm.foldl _ (fun a k => latch_calm (19 + k) a) _ (takeValues st clips s)).trans
    (handLevel_calm _)).outside.peers

theorem latchClamped_peers (clamped : Bool) (s : State) : (latchClamped clamped s).peers = s.peers :=
  (latchClamped_calm clamped s).outside.peers

theorem loadEnds_peers (s : State) : (loadEnds s).peers = s.peers := rfl

theorem noImage_peers (st : Staged) (s : State) : (noImage st s).peers = s.peers := by
  rw [noImage, enterFault_peers, loadEnds_peers, configure_peers, latchClamped_peers]

theorem beginListening_peers (s : State) : (beginListening s).peers = s.peers := rfl

theorem takeRecords_peers (im : ImageRecords) (s : State) : (takeRecords im s).peers = s.peers := rfl

theorem withImage_peers (st : Staged) (image : List Byte) (s : State) : (withImage st image s).peers = s.peers := by
  rw [withImage, beginListening_peers, loadEnds_peers, configure_peers, takeRecords_peers, latchClamped_peers]

theorem passedBlock_peers (block : List Byte) (s : State) : (passedBlock block s).peers = s.peers := by
  have ht := latchClamped_peers (takeBlock block).clamped s
  unfold passedBlock
  dsimp only
  split
  · exact (noImage_peers _ _).trans ht
  · exact ht

theorem peersOk_configBlockRead {s : State} (h : PeersOk s) (block : List Byte) :
    Answers PeersOk (execConfigBlockRead block s) := by
  refine answers_next ?_
  split
  · rename_i hg
    simp only [Bool.and_eq_true, decide_eq_true_eq] at hg
    refine peersOk_settle (peersOk_of_load h (loading_of_progress hg.1.1) ?_)
    split
    · exact passedBlock_peers block s
    · exact enterFault_peers (loadEnds s)
  · exact h

theorem peersOk_imageLoadEnd {s : State} (h : PeersOk s) (image : List Byte) :
    Answers PeersOk (execImageLoadEnd image s) := by
  refine answers_next ?_
  split
  · exact h
  · split
    · rename_i hg
      simp only [Bool.and_eq_true, decide_eq_true_eq] at hg
      refine peersOk_settle (peersOk_of_load h (loading_of_progress hg.1) ?_)
      split
      · exact withImage_peers _ image s
      · exact noImage_peers _ s
    · exact h

theorem peersPart_leaveStart (s : State) : peersPart (leaveStart s) = peersPart (listenEnds s) := by
  have unfixed : ∀ u, peersPart (unfixedStart u) = peersPart u := fun u => by
    unfold unfixedStart
    exact peersPart_if (peersPart_calm (latch_calm _ _)) rfl
  unfold leaveStart
  rw [peersPart_calm (atOnce_calm _), peersPart_aside (applyLevel_aside _).1, unfixed, peersPart_calm (atOnce_calm _)]

/-- R185: the load progress becomes DONE, which begins no load. -/
theorem peersOk_listenEnds {s : State} (h : PeersOk s) : PeersOk (listenEnds s) :=
  peersOk_of_loading h rfl rfl fun hl => by
    have hr : s.resetHeld = true := by simpa [State.loading, listenEnds] using hl
    simp [State.loading, hr]

theorem peersOk_listenExpiry {s : State} (h : PeersOk s) : Answers PeersOk (execListenExpiry s) := by
  refine answers_next ?_
  split
  · exact peersOk_settle_if h
      (peersOk_of_part (peersOk_listenEnds h) ((peersPart_beaconAtOnce _).trans (peersPart_leaveStart s)))
  · exact h

theorem peersPart_inputsAtReset (s : State) : peersPart (inputsAtReset s) = peersPart s := by
  have one : ∀ (b : Bool) (id : Nat) (u : State), peersPart (if b then latch id u else u) = peersPart u :=
    fun b id u => peersPart_if (peersPart_calm (latch_calm _ _)) rfl
  exact (one _ 10 _).trans (one _ 9 s)

theorem peersOk_fullResetEnd {s : State} (h : PeersOk s) : Answers PeersOk (execFullResetEnd s) := by
  refine answers_next ?_
  split
  · rename_i hr
    have ht : PeersOk { s with resetHeld := false } :=
      peersOk_of_loading h rfl rfl fun _ => by simp [State.loading, hr]
    exact peersOk_settle (peersOk_of_part ht (peersPart_inputsAtReset _))
  · exact h

/-! ## The remaining commands -/

theorem peersOk_peerStale {s : State} (h : PeersOk s) (address : Nat) : Answers PeersOk (execPeerStale address s) := by
  refine answers_next ?_
  split
  · exact h
  · rename_i p hp
    have hfill := peersOk_fill h (not_loading_of_peer h hp) (ne_own_of_peer h hp)
    refine peersOk_settle_if h ?_
    split
    · exact peersOk_of_part (hfill _)
        (peersPart_calm ((setPeer_becomeStale_calm address p _ s).trans (becomeLost_calm address p _)))
    · exact peersOk_of_part (hfill _) (peersPart_calm (becomeStale_calm address p s))

theorem peersOk_peerLost {s : State} (h : PeersOk s) (address : Nat) : Answers PeersOk (execPeerLost address s) := by
  refine answers_next ?_
  split
  · exact h
  · rename_i p hp
    exact peersOk_settle_if h (peersOk_becomeLost h (not_loading_of_peer h hp) (ne_own_of_peer h hp) p)

/-- The command leaves what `PeersOk` reads as it was. -/
def SamePeers (s : State) (o : Host.Outcome State Fault Refusal) : Prop := Answers (fun t => peersPart t = peersPart s) o

theorem SamePeers.peersOk {s : State} {o : Host.Outcome State Fault Refusal} (e : SamePeers s o) (h : PeersOk s) :
    Answers PeersOk o := by
  obtain ⟨t, ht, hpart⟩ := e
  exact ⟨t, ht, peersOk_of_part h hpart⟩

theorem samePeers_carrierOn (s : State) : SamePeers s (execCarrierOn s) := by
  refine answers_next (peersPart_if rfl ?_)
  dsimp only
  split <;> rfl

theorem samePeers_gapMet (s : State) : SamePeers s (execGapMet s) := by
  refine answers_next (peersPart_if rfl ?_)
  dsimp only
  split <;> rfl

theorem samePeers_countdownEnd (s : State) : SamePeers s (execCountdownEnd s) := by
  refine answers_next ?_
  split
  · exact (peersPart_settle _).trans (peersPart_chooseFrame s)
  all_goals rfl

theorem samePeers_transmissionEnd (s : State) : SamePeers s (execTransmissionEnd s) := by
  refine answers_next ?_
  split <;> rfl

theorem samePeers_beaconTimerExpiry (s : State) : SamePeers s (execBeaconTimerExpiry s) := by
  refine answers_next ?_
  split
  · rfl
  · exact peersPart_if (peersPart_beaconAtOnce s) rfl

theorem samePeers_cueLatenessExpiry (s : State) : SamePeers s (execCueLatenessExpiry s) := by
  refine answers_next ?_
  split
  · rfl
  · rename_i q _
    rw [peersPart_settle, peersPart_calm (latch_calm _ _), peersPart_calm (tally_calm _ _ _), peersPart_gapWithoutWork]
    rfl

theorem samePeers_silenceTimerExpiry (s : State) : SamePeers s (execSilenceTimerExpiry s) := by
  refine answers_next ?_
  split
  · rfl
  · exact peersPart_settle_if ((peersPart_calm (latch_calm 3 (fallSilent s))).trans rfl)

theorem samePeers_ownAddressTimeExpiry (s : State) : SamePeers s (execOwnAddressTimeExpiry s) := by
  refine answers_next ?_
  split
  · rfl
  · exact peersPart_if rfl rfl

theorem samePeers_odometryAdvance (left right : Half) (s : State) : SamePeers s (execOdometryAdvance left right s) :=
  answers_next ((peersPart_settle _).trans (peersPart_odometry left right s))

theorem samePeers_markerReport (code : BitVec 12) (lateral : Half) (complete : Bool) (s : State) :
    SamePeers s (execMarkerReport code lateral complete s) :=
  answers_next ((peersPart_settle _).trans (peersPart_if rfl (peersPart_markerReport _ _ s)))

theorem samePeers_permitCompute (s : State) : SamePeers s (execPermitCompute s) :=
  answers_next (peersPart_if rfl ((peersPart_settle _).trans (peersPart_controlInterval s)))

/-- R76: a stop input that is asserted latches its condition, unless the reset input is held. -/
theorem samePeers_stopInput {s t : State} (e : peersPart t = peersPart s) (asserted held : Bool) (id : Nat) :
    SamePeers s (.next (if asserted then s else if held then t else settle (latch id t))) :=
  answers_next (peersPart_if rfl
    (peersPart_if e ((peersPart_settle _).trans ((peersPart_calm (latch_calm id t)).trans e))))

theorem samePeers_claimIntervalEvaluation (s : State) : SamePeers s (execClaimIntervalEvaluation s) :=
  answers_next ((peersPart_settle _).trans (peersPart_if (peersPart_calmClaims (evaluateClaims_calm s)) rfl))

theorem samePeers_windowEnd (positions : List Byte) (s : State) : SamePeers s (execWindowEnd positions s) :=
  answers_next (peersPart_settle_if ((peersPart_calm (windowEnd_calm positions s)).trans rfl))

theorem samePeers_unlockPulseExpiry (seat : Nat) (s : State) : SamePeers s (execUnlockPulseExpiry seat s) := by
  refine answers_next ?_
  split
  · rfl
  · split
    · exact peersPart_settle_if ((peersPart_calm (latch_calm _ _)).trans rfl)
    · rfl

theorem samePeers_durationThreshold (key : DurationKey) (counter : Nat) (s : State) :
    SamePeers s (execDurationThreshold key counter s) := by
  refine answers_next ?_
  split
  · rfl
  · exact peersPart_settle_if (peersPart_calm (offerThreshold_calm _ _ s))

/-- R148: each pending cue that is due is taken off the list and executed, and the next is judged after it. -/
theorem peersPart_servePending (s : State) : peersPart (servePending s) = peersPart s := by
  refine peersPart_foldl (fun u w => peersPart_settle_if ?_) _ s
  show peersPart (executeCue w.cue (unlist w u)) = peersPart (unlist w u)
  unfold executeCue
  split
  · rfl
  · split
    · exact peersPart_offerCue _ _ _ _
    · exact peersPart_calm (soundStart_calm _ _ _ _ _ _)
    · exact peersPart_calm (soundStop_calm _ _ _)
    · rfl

theorem samePeers_pendingAdvance (s : State) : SamePeers s (execPendingAdvance s) :=
  answers_next (peersPart_if rfl ((peersPart_settle _).trans (peersPart_servePending (tick s))))

theorem samePeers_watchExpiry (cue : Nat) (s : State) : SamePeers s (execWatchExpiry cue s) := by
  refine answers_next ?_
  split
  · rfl
  · split
    · exact peersPart_settle_if (peersPart_calm (watchOccurs_calm _ s))
    · rfl

theorem samePeers_outputFrame (s : State) : SamePeers s (execOutputFrame s) :=
  answers_next (peersPart_if rfl
    ((peersPart_settle _).trans ((peersPart_calm (outputFrame_calm s)).trans rfl)))

theorem samePeers_fetchComplete (done : Completion) (s : State) : SamePeers s (execFetchComplete done s) := by
  refine answers_next ?_
  split
  · rfl
  · exact peersPart_settle_if rfl

theorem samePeers_fetchTimeout (s : State) : SamePeers s (execFetchTimeout s) := by
  refine answers_next ?_
  split
  · rfl
  · exact peersPart_settle_if (peersPart_calm (readFails_calm _ s))

theorem samePeers_waitExpiry (voice : Nat) (s : State) : SamePeers s (execWaitExpiry voice s) := by
  refine answers_next ?_
  split
  · rfl
  · split
    · exact peersPart_settle_if rfl
    · rfl

theorem samePeers_lineTestSample (returns : BitVec 12) (s : State) : SamePeers s (execLineTestSample returns s) :=
  answers_next (peersPart_if rfl rfl)

/-- Every command answers a next state and keeps the records. -/
theorem peersOk_exec (c : Instr) (s : State) (h : PeersOk s) : Answers PeersOk (exec c s) := by
  cases c with
  | fullReset => exact answers_next (peersOk_replicate rfl)
  | configBlockRead block => exact peersOk_configBlockRead h block
  | imageLoadEnd image => exact peersOk_imageLoadEnd h image
  | listenExpiry => exact peersOk_listenExpiry h
  | carrierOn => exact (samePeers_carrierOn s).peersOk h
  | gapMet => exact (samePeers_gapMet s).peersOk h
  | countdownEnd => exact (samePeers_countdownEnd s).peersOk h
  | transmissionEnd => exact (samePeers_transmissionEnd s).peersOk h
  | beaconTimerExpiry => exact (samePeers_beaconTimerExpiry s).peersOk h
  | cueLatenessExpiry => exact (samePeers_cueLatenessExpiry s).peersOk h
  | silenceTimerExpiry => exact (samePeers_silenceTimerExpiry s).peersOk h
  | ownAddressTimeExpiry => exact (samePeers_ownAddressTimeExpiry s).peersOk h
  | receiveFrame frame => exact answers_next (peersOk_settle (peersOk_receive h frame))
  | stopRide source => exact peersOk_commandHeader h rfl
  | stopZone source zone => exact peersOk_commandHeader h rfl
  | resume source target => exact peersOk_commandHeader h rfl
  | dispatch source target => exact peersOk_commandHeader h rfl
  | unlock source target seats => exact peersOk_commandHeader h rfl
  | clear source target conditions options => exact peersOk_commandHeader h rfl
  | retireImmediate source target => exact peersOk_commandHeader h rfl
  | retireAtStation source target => exact peersOk_commandHeader h rfl
  | retireLift source target => exact peersOk_commandHeader h rfl
  | forget source target address => exact peersOk_commandHeader h rfl
  | query source target kind selector => exact peersOk_commandHeader h rfl
  | restart source target => exact peersOk_commandHeader h rfl
  | peerStale address => exact peersOk_peerStale h address
  | peerLost address => exact peersOk_peerLost h address
  | odometryAdvance left right => exact (samePeers_odometryAdvance left right s).peersOk h
  | markerReport code lateral complete => exact (samePeers_markerReport code lateral complete s).peersOk h
  | permitCompute => exact (samePeers_permitCompute s).peersOk h
  | driveFault =>
    exact SamePeers.peersOk
      (samePeers_stopInput (s := s) (t := { s with driveFaultIn := true }) rfl s.driveFaultIn s.resetHeld 9) h
  | localStop =>
    exact SamePeers.peersOk
      (samePeers_stopInput (s := s) (t := { s with localStopIn := true }) rfl s.localStopIn s.resetHeld 10) h
  | claimIntervalEvaluation => exact (samePeers_claimIntervalEvaluation s).peersOk h
  | windowEnd positions => exact (samePeers_windowEnd positions s).peersOk h
  | unlockPulseExpiry seat => exact (samePeers_unlockPulseExpiry seat s).peersOk h
  | durationThreshold event counter => exact (samePeers_durationThreshold event counter s).peersOk h
  | pendingAdvance => exact (samePeers_pendingAdvance s).peersOk h
  | watchExpiry cue => exact (samePeers_watchExpiry cue s).peersOk h
  | outputFrame => exact (samePeers_outputFrame s).peersOk h
  | fetchComplete samples => exact (samePeers_fetchComplete samples s).peersOk h
  | fetchTimeout => exact (samePeers_fetchTimeout s).peersOk h
  | waitExpiry voice => exact (samePeers_waitExpiry voice s).peersOk h
  | fullResetEnd => exact peersOk_fullResetEnd h
  | driveFaultInputReleased => exact answers_next (peersOk_of_part h rfl)
  | localStopInputReleased => exact answers_next (peersOk_of_part h rfl)
  | lineTestSample returns => exact (samePeers_lineTestSample returns s).peersOk h

/-- Settles O6: every command keeps the records, and the queue of commands is no part of them. -/
theorem peersKept : Obligations.PeersKept :=
  kept_of_exec (fun _ _ h => peersOk_of_part h rfl) peersOk_exec

end Sys2Proof.PeerTable
end

section
/-! The commands of the Peer Table one by one: a beacon of another station (R19 to R23), FORGET (R27) and ageing (R25). A
change of the records and the watches settles to itself when nothing is outstanding (`settle_records`). -/
namespace Sys2Proof.PeerTable
open Sys2Proof.Machine Sys2Proof.Safety Sys2Proof.RideLink

/-! ## Settling after a change of the records and the watches -/

/-- A standing judgement does not read the records or the cues (R54 to R56). -/
theorem judgeStanding_records (s : State) (ps : List (Option Peer)) (q : CueSequencer) :
    judgeStanding { s with peers := ps, cues := q } = { judgeStanding s with peers := ps, cues := q } := by
  have hr : State.readyMet { s with peers := ps, cues := q } = s.readyMet := rfl
  unfold judgeStanding
  rw [hr]
  dsimp only
  split <;> (repeat' split) <;> rfl

/-- The fetch arbiter does not read the records or the cues (R167). -/
theorem arbitrate_records (s : State) (ps : List (Option Peer)) (q : CueSequencer) :
    arbitrate { s with peers := ps, cues := q } = { arbitrate s with peers := ps, cues := q } := by
  have hl : State.loading { s with peers := ps, cues := q } = s.loading := rfl
  unfold arbitrate
  rw [hl]
  dsimp only
  split
  · rfl
  · split <;> rfl

/-- With nothing outstanding, a change of the records and the cues leaves nothing outstanding. -/
theorem settle_records {s : State} (h : Still s) (ps : List (Option Peer)) (q : CueSequencer) :
    settle { s with peers := ps, cues := q } = { s with peers := ps, cues := q } :=
  Still.settle
    { notices := h.notices
      judged := by rw [judgeStanding_records, h.judged]
      granted := by rw [arbitrate_records, h.granted] }

/-- R10, R16: a reception alone leaves nothing outstanding. -/
theorem still_received {s : State} (h : Still s) : Still (received s) where
  notices := h.notices
  judged := by
    have e := judgeStanding_link s (received s).link s.draws
    rw [h.judged] at e
    exact e
  granted := by
    have e := arbitrate_link s (received s).link s.draws
    rw [h.granted] at e
    exact e

/-! ## A beacon of another station (R19 to R23, R26) -/

/-- R10: a frame that passes the checks has a station's source. -/
theorem checkFrame_source {frame : List Byte} {f : Frame} (h : checkFrame frame = some f) :
    1 ≤ f.source ∧ f.source ≤ 31 := by
  unfold checkFrame at h
  split at h
  · exact nomatch h
  · dsimp only at h
    split at h
    · rename_i hchecks
      injection h with h
      rw [← h]
      exact hchecks.2.2
    · exact nomatch h

theorem exec_beacon {s : State} {frame : List Byte} {f : Frame} {kind : StationKind} (hh : s.hears = true)
    (hf : checkFrame frame = some f) (hk : f.kind = 0) (ho : f.source ≠ s.link.ownAddress)
    (hkind : stationKindOf (byteAt f.body 0) = some kind) :
    exec (.receiveFrame frame) s = .next (settle (takeBeacon f.source kind f.body (received s))) := by
  show Host.Outcome.next (settle (receive frame s)) = _
  rw [receive_valid hh hf, route_beacon hk, beaconFrameTaken,
    if_neg (show ¬ f.source = (received s).link.ownAddress from ho), hkind]

/-- Settles O24: a duplicate is discarded; any other beacon writes its record, and what it is handed on to is aside. -/
theorem beaconTaken : Obligations.BeaconTaken := by
  intro s frame f kind hh hf hk ho hkind
  have hexec := exec_beacon hh hf hk ho hkind
  refine ⟨fun p hp hpk hd hs => ?_, fun hn hok => ?_⟩
  · rw [hexec, takeBeacon_duplicate (s := received s) hp hpk hd, (still_received hs).settle]
  · obtain ⟨hlow, hhigh⟩ := checkFrame_source hf
    have htaken := takeBeacon_accepted_calm (s := received s) hn
    have hunclaimed := fun hv => takeBeacon_claims (s := received s) hv hn
    generalize takeBeacon f.source kind f.body (received s) = w at hexec htaken hunclaimed
    generalize hq : beaconRecord f.source kind f.body (received s) = q at htaken
    have hset := settle_aside w
    have hpeers := hset.outside.peers.trans htaken.outside.peers
    have hpeer : ∀ a, (settle w).peer a = (setPeer f.source (some q) (received s)).peer a := fun a => by
      rw [State.peer, hpeers]
      rfl
    have hclaims : (settle w).claims = w.claims := hset.outside.claims
    refine ⟨settle w, q, hexec, ?_, hq ▸ rfl, hq ▸ rfl, hq ▸ rfl, hq ▸ rfl, hq ▸ rfl, hq ▸ rfl, fun h => ?_,
      fun p hp hpk => ?_, fun p hp hpk => ?_, fun a ha => ?_, fun hv => hclaims.trans (hunclaimed hv), ?_⟩
    · rw [hpeer]
      exact peer_setPeer_same hlow (by rw [show (received s).peers.length = 31 from hok.count]; exact hhigh) _
    · rw [← hq, beaconRecord_framesLost_new]
      rw [show (received s).peer f.source = none from h]
      rfl
    · rw [← hq, beaconRecord_framesLost_new]
      rw [show (received s).peer f.source = some p from hp]
      exact sameKind_other hpk
    · rw [← hq]
      exact beaconRecord_framesLost_same (s := received s) hp hpk
    · rw [hpeer]
      exact peer_setPeer_other ha _ (received s)
    · rw [hpeers, hclaims]
      exact htaken.toAside.trans hset

/-! ## FORGET (R27) -/

theorem exec_forget {s : State} {source target : Nat} (h : Accepted s .forget source target) (address : Nat) :
    exec (.forget source target address) s = .next (settle (forgetPeer address (received s))) := by
  rw [exec_commandHeader (c := .forget source target address) rfl, commandRow_accepted h]
  rfl

/-- Settles O33: no effect, a record of another kind, a SCENE record with its watches. -/
theorem forgetTaken : Obligations.ForgetTaken := by
  intro s source target address hacc hs
  have hr := still_received hs
  rw [exec_forget hacc]
  refine ⟨fun h => ?_, fun p ho hp hk => ?_, fun p ho hp hk => ?_⟩
  · rw [forgetPeer_nothing (s := received s) h, hr.settle]
  · rw [forgetPeer_filled (s := received s) ho hp hk, setPeer_eq (ne_zero_of_peer hp)]
    exact congrArg _ (settle_records hr _ s.cues)
  · have hsettle := settle_records hr (s.peers.set (address - 1) none) (sceneGone address s).cues
    rw [forgetPeer_scene (s := received s) ho hp hk, setPeer_eq (ne_zero_of_peer hp)]
    exact ⟨_, congrArg _ hsettle, rfl, rfl, fun i c hc =>
      ⟨fun ht => onSceneCues_scene hc ht, fun ht => onSceneCues_other hc ht⟩⟩

/-! ## Ageing (R25, R28, R153) -/

/-- R25: the first expiry, for a record whose age exceeds the stale time. -/
theorem exec_peerStale {s : State} {a : Nat} {p : Peer} (hp : s.peer a = some p) (hf : p.state = .fresh)
    (hage : s.settings.staleTime < s.ageOf p) :
    exec (.peerStale a) s = .next (settle
      (if s.settings.lostTime ≤ s.settings.staleTime then becomeLost a p (becomeStale a p s) else becomeStale a p s)) := by
  show execPeerStale a s = _
  simp [execPeerStale, hp, hf, hage]

theorem exec_peerLost {s : State} {a : Nat} {p : Peer} (hp : s.peer a = some p) (hf : p.state = .stale)
    (hage : s.settings.lostTime < s.ageOf p) : exec (.peerLost a) s = .next (settle (becomeLost a p s)) := by
  show execPeerLost a s = _
  simp [execPeerLost, hp, hf, hage]

/-- R28: a VEHICLE record that becomes LOST latches PEER_LOST. -/
theorem becomeLost_latched {s u : State} {a : Nat} {p : Peer} (hk : p.kind = .vehicle) (hs : TablesOk s)
    (hu : u.cond.records.length = s.cond.records.length) : Latched (settle (becomeLost a p u)) 4 := by
  rw [becomeLost_vehicle hk]
  exact latched_settle_latch (by decide) (by decide) hs hu

/-- Settles O35: STALE for another kind, STALE for a SCENE, at once LOST, LOST for another kind, LOST for a VEHICLE. -/
theorem peersAge : Obligations.PeersAge := by
  refine ⟨fun s a p hp hf hage hlt hk hs => ?_, fun s a p hp hf hage hlt hk hs => ?_,
    fun s a p hp hf hage hle hs => ?_, fun s a p hp hf hage hk hs => ?_, fun s a p hp hf hage hk hs => ?_⟩
  · rw [exec_peerStale hp hf hage, if_neg (Nat.not_le.mpr hlt), becomeStale_other hk, setPeer_eq (ne_zero_of_peer hp)]
    exact congrArg _ (settle_records hs _ s.cues)
  · rw [exec_peerStale hp hf hage, if_neg (Nat.not_le.mpr hlt), becomeStale_scene hk, setPeer_eq (ne_zero_of_peer hp)]
    have hsettle := settle_records hs (s.peers.set (a - 1) (some { p with state := .stale })) (sceneStale a s).cues
    exact ⟨_, congrArg _ hsettle, rfl, rfl, fun i c hc =>
      ⟨fun ht => onSceneCues_scene hc ht, fun ht => onSceneCues_other hc ht⟩⟩
  · rw [exec_peerStale hp hf hage, if_pos hle]
    have haside := ((setPeer_becomeStale_calm a p _ s).trans (becomeLost_calm a p (becomeStale a p s))).toAside.trans
      (settle_aside _)
    rw [setPeer_eq (ne_zero_of_peer hp)] at haside
    exact ⟨_, rfl, fun hk => becomeLost_latched hk hs (becomeStale_calm a p s).grows.length, haside⟩
  · rw [exec_peerLost hp hf hage, becomeLost_other hk, setPeer_eq (ne_zero_of_peer hp)]
    exact congrArg _ (settle_records hs _ s.cues)
  · rw [exec_peerLost hp hf hage]
    have haside := (becomeLost_calm a p s).toAside.trans (settle_aside _)
    rw [setPeer_eq (ne_zero_of_peer hp)] at haside
    exact ⟨_, rfl, becomeLost_latched hk hs rfl, haside⟩

end Sys2Proof.PeerTable
end

section
/-! What the handing on of a position change does (R45): the tracker is the one given, the claims are those that the Zone
Claim Unit forms (R81, R86), what the tracker reports is latched, an arrival ends RUNNING and HOLDING (R55), and the rest is
aside. The order of the event is free (R123; log 5), so each fact is carried through both orders. -/
namespace Sys2Proof.Position
open Sys2Proof.Machine Sys2Proof.Safety Sys2Proof.RideLink

/-! ## Beside the tracker and the claim list -/

/-- The side effects read neither the tracker nor the claim list. -/
theorem aside_withPlace {s t : State} (h : Aside s t) (k : Tracker) (cs : List Claim) :
    Aside { s with tracker := k, claims := cs } { t with tracker := k, claims := cs } :=
  { h with outside := { h.outside with tracker := rfl, claims := rfl }
           sizes := { h.sizes with } }

theorem calmClaims_aside {s t : State} (h : CalmClaims s t) : Aside { s with claims := t.claims } t := Calm.toAside h

/-- A latched flag stays, whatever becomes of the claim list. -/
theorem latched_calmClaims {s t : State} {id : Nat} (h : Latched s id) (c : CalmClaims s t) : Latched t id :=
  Latched.aside (s := { s with claims := t.claims }) h (calmClaims_aside c)

theorem records_length_calmClaims {s t : State} (c : CalmClaims s t) : t.cond.records.length = s.cond.records.length :=
  (calmClaims_aside c).grows.length

/-! ## A free order -/

/-- What one part of an event brings about holds after both, when the other part keeps what it needs and what it gives. -/
theorem eitherOrder_left {P Q : State → Prop} {f g : State → State} (hd : ∀ u n, P u → P { u with draws := n })
    (hf : ∀ u, P u → Q (f u)) (hP : ∀ u, P u → P (g u)) (hQ : ∀ u, Q u → Q (g u)) {s : State} (hs : P s) :
    Q (eitherOrder f g s) := by
  unfold eitherOrder
  dsimp only
  split
  · exact hQ _ (hf _ (hd _ _ hs))
  · exact hf _ (hP _ (hd _ _ hs))

theorem eitherOrder_right {P Q : State → Prop} {f g : State → State} (hd : ∀ u n, P u → P { u with draws := n })
    (hg : ∀ u, P u → Q (g u)) (hP : ∀ u, P u → P (f u)) (hQ : ∀ u, Q u → Q (f u)) {s : State} (hs : P s) :
    Q (eitherOrder f g s) := by
  unfold eitherOrder
  dsimp only
  split
  · exact hg _ (hP _ (hd _ _ hs))
  · exact hQ _ (hg _ (hd _ _ hs))

/-- What the Zone Claim Unit brings about at a position change holds once the change has been handed on and settled. -/
theorem settle_handOn_of_claims {P Q : State → Prop} {r : Route} {res : TrackerResult} {s : State}
    (hc : ∀ u, P u → Q (claimsChange r res.change u)) (hP : ∀ u v, Calm u v → P u → P v)
    (hQ : ∀ u v, Aside u v → Q u → Q v) (hs : P { s with tracker := res.tracker }) : Q (settle (handOn r res s)) := by
  have hd : ∀ u n, P u → P { u with draws := n } := fun u n => hP u _ (Calm.draws u n)
  have hQc : ∀ {u v}, Calm u v → Q u → Q v := fun h => hQ _ _ h.toAside
  have hclaims : ∀ u, P u → Q (eitherOrder (claimsChange r res.change) (cuesChange r res.change) u) := fun u =>
    eitherOrder_left hd hc (fun v => hP v _ (cuesChange_calm r res.change v)) (fun v => hQc (cuesChange_calm r res.change v))
  refine hQ _ _ (settle_aside _) (hQc (stationWithdraw_calm _) (hQc (motionArrival_calm _ _) ?_))
  exact eitherOrder_right hd hclaims (fun u => hP u _ (reportAll_calm res.reports u))
    (fun u => hQc (reportAll_calm res.reports u)) (hP _ _ (judgeBerth_calm _) hs)

/-! ## The tracker, and what is aside -/

theorem settle_handOn_tracker (r : Route) (res : TrackerResult) (s : State) :
    (settle (handOn r res s)).tracker = res.tracker :=
  (settle_aside _).outside.tracker.trans (handOn_tracker r res s)

theorem settle_handOn_aside (r : Route) (res : TrackerResult) (s : State) :
    Aside { s with tracker := (settle (handOn r res s)).tracker, claims := (settle (handOn r res s)).claims }
      (settle (handOn r res s)) := by
  have hset := settle_aside (handOn r res s)
  have h := (calmClaims_aside (handOn_calm r res s)).trans hset
  rw [settle_handOn_tracker, hset.outside.claims]
  exact h

/-! ## The claims (R81, R86) -/

/-- R86: the claim list after an initial fix. -/
def initialList (r : Route) (c : Settings) (now front : Nat) (cs : List Claim) : List Claim :=
  let tail := r.tailOf c.bodyLength front
  pathOrder r tail (placeIntent r c.claimDistance now front (pathOrder r tail
    (cs ++ (initialZones r c.bodyLength front).map fun z => { zone := z, stage := .held, since := none, mark := false })))

/-- R81, R86: the claim list after a position change. -/
def claimsTaken (r : Route) (ch : PosChange) (s : State) : List Claim :=
  if ch.kind = .initialFix then initialList r s.settings s.now s.front s.claims
  else claimsAfter r ch.span s.settings s.now s.front s.claims

theorem claimsChange_claims (r : Route) (ch : PosChange) (s : State) :
    (claimsChange r ch s).claims = claimsTaken r ch s := by
  unfold claimsChange claimsTaken
  split
  · exact (conflicts_calm _ _).outside.claims
  · exact movedClaims_claims r ch s

/-- The claims are formed from what no side effect changes. -/
theorem claimsTaken_calm (r : Route) (ch : PosChange) {s t : State} (h : Calm s t) :
    claimsTaken r ch t = claimsTaken r ch s := by
  have ho := h.outside
  unfold claimsTaken State.front
  rw [ho.settings, ho.now, ho.tracker, ho.claims]

theorem settle_handOn_claims (r : Route) (res : TrackerResult) (s : State) :
    (settle (handOn r res s)).claims = claimsTaken r res.change { s with tracker := res.tracker } :=
  settle_handOn_of_claims (P := fun u => claimsTaken r res.change u = claimsTaken r res.change { s with tracker := res.tracker })
    (Q := fun u => u.claims = claimsTaken r res.change { s with tracker := res.tracker })
    (fun u h => (claimsChange_claims r res.change u).trans h) (fun _ _ h e => (claimsTaken_calm r res.change h).trans e)
    (fun _ _ h e => h.outside.claims.trans e) rfl

/-- R81: the claims after a change that is no initial fix. -/
theorem settle_handOn_moved {r : Route} {res : TrackerResult} (hk : res.change.kind ≠ .initialFix) (s : State) :
    (settle (handOn r res s)).claims
      = claimsAfter r res.change.span s.settings s.now (res.tracker.pos / 1000) s.claims := by
  rw [settle_handOn_claims, claimsTaken, if_neg hk]
  rfl

/-- R86: the claims after an initial fix. -/
theorem settle_handOn_initial {r : Route} {res : TrackerResult} (hk : res.change.kind = .initialFix) (s : State) :
    (settle (handOn r res s)).claims = initialList r s.settings s.now (res.tracker.pos / 1000) s.claims := by
  rw [settle_handOn_claims, claimsTaken, if_pos hk]
  rfl

/-- R86: one occurrence of ZONE_CONFLICT or more latches it. -/
theorem conflicts_latched {n : Nat} (hn : n ≠ 0) {s : State} (hlen : 13 ≤ s.cond.records.length) :
    Latched (conflicts n s) 13 := by
  obtain ⟨k, rfl⟩ := Nat.exists_eq_succ_of_ne_zero hn
  exact (latch_latched 13 s (by decide) hlen).aside (conflicts_calm k (latch 13 s)).toAside

/-- R86: an initial fix into a zone whose holders fill its capacity latches ZONE_CONFLICT. -/
theorem settle_handOn_conflict {r : Route} {res : TrackerResult} {s : State} {z : Nat}
    (hk : res.change.kind = .initialFix) (hlen : s.cond.records.length = 25)
    (hz : z ∈ initialZones r s.settings.bodyLength (res.tracker.pos / 1000)) (hfull : r.capacity z ≤ heldCount s z) :
    Latched (settle (handOn r res s)) 13 := by
  refine settle_handOn_of_claims (Q := fun u => Latched u 13)
    (P := fun u => u.cond.records.length = 25 ∧ u.settings = s.settings ∧ u.tracker = res.tracker ∧ u.peers = s.peers)
    (fun u => ?_) (fun u v h => ?_) (fun _ _ h e => e.aside h) ⟨hlen, rfl, rfl, rfl⟩
  · rintro ⟨hl, hset, htr, hpeers⟩
    have hheld : heldCount u z = heldCount s z := by rw [heldCount, State.countedPeers, hpeers]; rfl
    rw [claimsChange, if_pos hk]
    refine conflicts_latched (List.length_pos_of_mem (a := z) (List.mem_filter.mpr ⟨?_, ?_⟩)).ne' (hl ▸ by decide)
    · rw [State.front, hset, htr]
      exact hz
    · rw [hheld]
      exact decide_eq_true hfull
  · have ho := h.outside
    rw [h.grows.length, ho.settings, ho.tracker, ho.peers]
    exact id

/-! ## The reports and the arrival -/

/-- Every condition that a list of reports latches is one of the 25. -/
def LatchesKnown (rs : List Report) : Prop := ∀ id, Report.latch id ∈ rs → 1 ≤ id ∧ id ≤ 25

theorem reportAll_latched {rs : List Report} {id : Nat} (h : Report.latch id ∈ rs) (hid : 1 ≤ id) {s : State}
    (hlen : id ≤ s.cond.records.length) : Latched (reportAll rs s) id := by
  induction rs generalizing s with
  | nil => exact absurd h List.not_mem_nil
  | cons q rs ih =>
    rcases List.mem_cons.mp h with rfl | h
    · exact (latch_latched id s hid hlen).aside (reportAll_calm rs (latch id s)).toAside
    · have hone : Calm s (reportAll [q] s) := reportAll_calm [q] s
      exact ih (s := reportAll [q] s) h (hone.grows.length ▸ hlen)

/-- What the tracker reports is latched once the change has been handed on. -/
theorem settle_handOn_latched {r : Route} {res : TrackerResult} {s : State} {id : Nat} (hk : LatchesKnown res.reports)
    (hlen : s.cond.records.length = 25) (h : Report.latch id ∈ res.reports) : Latched (settle (handOn r res s)) id := by
  obtain ⟨hid, hle⟩ := hk id h
  have hclaims : ∀ u, CalmClaims u (eitherOrder (claimsChange r res.change) (cuesChange r res.change) u) :=
    eitherOrder_calmClaims (claimsChange_calm r res.change) fun v => CalmClaims.of_calm (cuesChange_calm r res.change v)
  have hboth : Latched (eitherOrder (reportAll res.reports)
      (eitherOrder (claimsChange r res.change) (cuesChange r res.change))
      (judgeBerth { s with tracker := res.tracker })) id :=
    eitherOrder_left (P := fun u => u.cond.records.length = 25) (Q := fun u => Latched u id) (fun _ _ hu => hu)
      (fun u hu => reportAll_latched h hid (hu ▸ hle)) (fun u hu => (records_length_calmClaims (hclaims u)).trans hu)
      (fun u hu => latched_calmClaims hu (hclaims u))
      ((judgeBerth_calm { s with tracker := res.tracker }).grows.length.trans hlen)
  exact ((hboth.aside (motionArrival_calm _ _).toAside).aside (stationWithdraw_calm _).toAside).aside (settle_aside _)

/-- No side effect enters RUNNING or HOLDING. -/
theorem notMoving_aside {s t : State} (h : Aside s t) (hs : s.motion.state ≠ .running ∧ s.motion.state ≠ .holding) :
    t.motion.state ≠ .running ∧ t.motion.state ≠ .holding :=
  ⟨fun e => hs.1 ((h.moving (Or.inl e)).trans e), fun e => hs.2 ((h.moving (Or.inr e)).trans e)⟩

/-- R55: an arrival leaves neither RUNNING nor HOLDING. -/
theorem motionArrival_state {ch : PosChange} (ha : ch.arrival = true) (s : State) :
    (motionArrival ch s).motion.state ≠ .running ∧ (motionArrival ch s).motion.state ≠ .holding := by
  unfold motionArrival
  rw [ha]
  split
  · exact ⟨nofun, nofun⟩
  · rename_i hn
    simpa using hn

theorem settle_handOn_arrival {r : Route} {res : TrackerResult} (ha : res.change.arrival = true) (s : State) :
    (settle (handOn r res s)).motion.state ≠ .running ∧ (settle (handOn r res s)).motion.state ≠ .holding :=
  notMoving_aside ((stationWithdraw_calm _).toAside.trans (settle_aside _)) (motionArrival_state ha _)

end Sys2Proof.Position
end

section
/-! What the Position Tracker's computations give, once for each: places on the loop (R32), moves (R37), misses (R43), the
berth (R46 to R49), and the whole changes (R36, R40 to R42): which fields of the tracker each leaves as they were. -/
namespace Sys2Proof.Position
open Sys2Proof.Machine Sys2Proof.Safety

/-! ## Places on the loop (R32) -/

/-- The distance ahead between two places of a loop. -/
theorem ahead_of_lt {n p m : Nat} (hp : p < n) (hm : m < n) : ahead n p m = if p ≤ m then m - p else m + n - p := by
  rw [ahead, Nat.mod_eq_of_lt hp]
  split
  · rw [show m + (n - p) = (m - p) + n by omega, Nat.add_mod_right, Nat.mod_eq_of_lt (by omega)]
  · rw [Nat.mod_eq_of_lt (by omega)]
    omega

theorem ahead_lt {n p m : Nat} (hm : m < n) : ahead n p m < n := Nat.mod_lt _ (by omega)

/-- A forward move by the distance ahead ends at the place. -/
theorem add_ahead {n p m : Nat} (hp : p < n) (hm : m < n) : (p + ahead n p m) % n = m := by
  rw [ahead_of_lt hp hm]
  split
  · rw [show p + (m - p) = m by omega, Nat.mod_eq_of_lt hm]
  · rw [show p + (m + n - p) = m + n by omega, Nat.add_mod_right, Nat.mod_eq_of_lt hm]

/-- A backward move by the distance back ends at the place. -/
theorem sub_ahead {n p m : Nat} (hp : p < n) (hm : m < n) : (p + (n - ahead n m p % n)) % n = m := by
  rw [Nat.mod_eq_of_lt (ahead_lt hp), ahead_of_lt hm hp]
  split
  · rw [show p + (n - (p - m)) = m + n by omega, Nat.add_mod_right, Nat.mod_eq_of_lt hm]
  · rw [show p + (n - (p + n - m)) = m by omega, Nat.mod_eq_of_lt hm]

/-- What is not ahead lies behind. -/
theorem loop_sub_ahead {n p m : Nat} (hp : p < n) (hm : m < n) (h : ahead n p m ≠ 0) :
    n - ahead n p m = ahead n m p := by
  rw [ahead_of_lt hp hm] at h ⊢
  rw [ahead_of_lt hm hp]
  split_ifs at h ⊢ <;> omega

/-- R37: a span runs from after its start up to and including its end. -/
theorem spanHas_iff {m p f x : Nat} :
    spanHas m p f x = true ↔ (if ahead m p x = 0 then m else ahead m p x) ≤ f := decide_eq_true_iff

/-! ## Moves and markers (R37, R43, R44) -/

/-- R43: the misses of a move change the expected marker with its distance, the count, the confidence, and at berth. -/
theorem missLoop_frame (r : Route) (f n : Nat) (t : Tracker) (rs : List Report) :
    ∃ c e d k b, (missLoop r f n t rs).1 = { t with conf := c, expected := e, missIn := d, misses := k, atBerth := b } := by
  induction n generalizing t rs with
  | zero => exact ⟨_, _, _, _, _, rfl⟩
  | succ n ih =>
    rw [missLoop]
    split
    · exact ⟨_, _, _, _, _, rfl⟩
    · split
      · exact ⟨_, _, _, _, _, rfl⟩
      · split
        · exact ⟨_, _, _, _, _, rfl⟩
        · obtain ⟨c, e, d, k, b, h⟩ := ih _ _
          exact ⟨c, e, d, k, b, h⟩

theorem advanceMisses_counted {r : Route} {a : Nat} {t : Tracker} (h : t.conf = .good ∨ t.conf = .reckoning) :
    advanceMisses r a t = missLoop r a 4 (t.forward r a) [] := by
  rcases h with h | h <;> simp [advanceMisses, h]

theorem advanceMisses_uncounted {r : Route} {a : Nat} {t : Tracker} (hg : t.conf ≠ .good) (hr : t.conf ≠ .reckoning) :
    advanceMisses r a t = (t.forward r a, []) := by
  simp [advanceMisses, hg, hr]

theorem advanceMisses_frame (r : Route) (a : Nat) (t : Tracker) : ∃ c e d k b, (advanceMisses r a t).1
    = { t.forward r a with conf := c, expected := e, missIn := d, misses := k, atBerth := b } := by
  unfold advanceMisses
  split
  · exact missLoop_frame r a 4 (t.forward r a) []
  · exact ⟨_, _, _, _, _, rfl⟩

/-- R43: no expected marker, no miss. -/
theorem missLoop_none {r : Route} {f n : Nat} {t : Tracker} (h : t.expected = none) (rs : List Report) :
    missLoop r f n t rs = (t, rs) := by
  cases n with
  | zero => rfl
  | succ n => rw [missLoop, h]

/-- R43: the expected marker has not been passed by more than 150 mm. -/
theorem missLoop_within {r : Route} {f n m : Nat} {t : Tracker} (h : t.expected = some m) (hf : f ≤ t.missIn)
    (rs : List Report) : missLoop r f (n + 1) t rs = ({ t with missIn := t.missIn - f }, rs) := by
  rw [missLoop, h]
  exact if_pos hf

/-- R43: the third miss in a row. -/
theorem missLoop_third {r : Route} {f n m : Nat} {t : Tracker} (h : t.expected = some m) (hf : t.missIn < f)
    (hk : 2 ≤ t.misses) (rs : List Report) : missLoop r f (n + 1) t rs
      = ({ t with misses := 3, conf := .lost, expected := none, missIn := 0, atBerth := false },
        rs ++ [.tally .markerMiss, .latch 7]) := by
  rw [missLoop, h]
  dsimp only
  rw [if_neg (Nat.not_le.mpr hf), if_pos (Nat.succ_le_succ hk)]

/-- R43: a first or second miss, after which the next marker is expected. -/
theorem missLoop_miss {r : Route} {f n m : Nat} {t : Tracker} (h : t.expected = some m) (hf : t.missIn < f)
    (hk : t.misses < 2) (rs : List Report) : missLoop r f (n + 1) t rs
      = missLoop r f n
          { t with misses := t.misses + 1, conf := .reckoning, expected := r.markerAfter m,
                   missIn := t.missIn + ((r.markerAfter m).map (r.markerGap m)).getD 0 }
          (rs ++ [.tally .markerMiss]) := by
  rw [missLoop, h]
  dsimp only
  rw [if_neg (Nat.not_le.mpr hf), if_neg (by omega)]

/-- R43: of the conditions, misses latch MARKER_LOST alone. -/
theorem missLoop_latches (r : Route) (f n : Nat) (t : Tracker) {rs : List Report} (h : LatchesKnown rs) :
    LatchesKnown (missLoop r f n t rs).2 := by
  induction n generalizing t rs with
  | zero => exact h
  | succ n ih =>
    rw [missLoop]
    split
    · exact h
    · split
      · exact h
      · split
        · intro id hid
          rcases List.mem_append.mp hid with hid | hid
          · exact h id hid
          · obtain rfl : id = 7 := by simpa using hid
            decide
        · refine ih _ fun id hid => ?_
          rcases List.mem_append.mp hid with hid | hid
          · exact h id hid
          · exact absurd hid (by simp)

theorem latchesKnown_nil : LatchesKnown [] := fun _ h => absurd h List.not_mem_nil

theorem advanceMisses_latches (r : Route) (a : Nat) (t : Tracker) : LatchesKnown (advanceMisses r a t).2 := by
  unfold advanceMisses
  split
  · exact missLoop_latches r a 4 _ latchesKnown_nil
  · exact latchesKnown_nil

/-- R40, R44: a marker report that is accepted. -/
theorem accept_eq (r : Route) (code : Nat) (lateral : Int) (t : Tracker) : t.accept r code lateral =
    { t with
      conf := .good, misses := 0, expected := r.markerAfter code
      missIn := (match r.markerAfter code with | none => 0 | some n => r.markerGap code n) + 150000
      lateral := clampInt (-200) 200 lateral, since := 0 } := by
  unfold Tracker.accept
  cases r.markerAfter code <;> rfl

/-! ## The berth (R46 to R49) -/

/-- R46 to R48: the end of a change writes the lap, the berth and its distance. -/
theorem finishChange_frame (r : Route) (tolerance speed : Nat) (overshot : Bool) (rs : List Report) (ch : PosChange)
    (t : Tracker) : ∃ l b k d, (finishChange r tolerance speed overshot rs ch t).tracker
      = { t with lap := l, armed := b, atBerth := k, fb := d } := by
  unfold finishChange
  dsimp only
  split <;> exact ⟨_, _, _, _, rfl⟩

theorem finishChange_change (r : Route) (tolerance speed : Nat) (overshot : Bool) (rs : List Report) (ch : PosChange)
    (t : Tracker) : (finishChange r tolerance speed overshot rs ch t).change
      = { ch with arrival := arrives r tolerance speed t } := rfl

theorem finishChange_latches (r : Route) (tolerance speed : Nat) (overshot : Bool) {rs : List Report} (ch : PosChange)
    (t : Tracker) (h : LatchesKnown rs) : LatchesKnown (finishChange r tolerance speed overshot rs ch t).reports := by
  intro id hid
  rcases List.mem_append.mp hid with hid | hid
  · exact h id hid
  · cases overshot with
    | false => exact absurd hid List.not_mem_nil
    | true =>
      obtain rfl : id = 24 := by simpa using hid
      decide

/-- R48: the three tests of an arrival. -/
theorem arrives_iff {r : Route} {tolerance speed : Nat} {t : Tracker} : arrives r tolerance speed t = true
    ↔ t.armed = true ∧ r.berthDistance t.pos ≤ tolerance ∧ speed = 0 := by
  simp [arrives, and_assoc]

/-- R48: the tracker of an arrival. -/
theorem finishChange_arrived {r : Route} {tolerance speed : Nat} {overshot : Bool} {rs : List Report} {ch : PosChange}
    {t : Tracker} (h : arrives r tolerance speed t = true) : (finishChange r tolerance speed overshot rs ch t).tracker
      = { t with lap := t.lap + 1, armed := false, atBerth := true, fb := if overshot then some 0 else none } := by
  unfold finishChange
  rw [h]
  rfl

/-- R46: without an arrival only the berth distance is written. -/
theorem finishChange_passing {r : Route} {tolerance speed : Nat} {overshot : Bool} {rs : List Report} {ch : PosChange}
    {t : Tracker} (h : arrives r tolerance speed t = false) : (finishChange r tolerance speed overshot rs ch t).tracker
      = { t with fb := if t.armed then some (r.berthDistance t.pos) else if overshot then some 0 else none } := by
  unfold finishChange
  rw [h]
  rfl

theorem berthForward_frame (r : Route) (tolerance p f : Nat) (mayArm : Bool) (t : Tracker) :
    (berthForward r tolerance p f mayArm t).1
      = { t with
          armed := (berthForward r tolerance p f mayArm t).1.armed
          atBerth := (berthForward r tolerance p f mayArm t).1.atBerth } := rfl

/-- R49: at berth is left by a move deeper than the berth plus the tolerance, and never gained by a move. -/
theorem berthForward_atBerth {r : Route} {tolerance p f : Nat} {mayArm : Bool} {t : Tracker} :
    (berthForward r tolerance p f mayArm t).1.atBerth = true
      ↔ t.atBerth = true ∧ (r.depth p + f) / 1000 ≤ r.berthDepth + tolerance := by
  simp [berthForward, Route.beyondBerth]

/-- R47: where arming is ruled out, an unarmed berth stays unarmed. -/
theorem berthForward_unarmed {r : Route} {tolerance p f : Nat} {t : Tracker} (h : t.armed = false) :
    (berthForward r tolerance p f false t).1.armed = false := by
  simp [berthForward, h]

/-- R49: the berth band in mm. -/
theorem inBand_iff {r : Route} {tolerance m : Nat} : r.inBand tolerance (1000 * m) = true
    ↔ r.zoneAt m = r.stationZone ∧ r.berthDepth ≤ r.depth (1000 * m) / 1000 + tolerance
      ∧ r.depth (1000 * m) / 1000 ≤ r.berthDepth + tolerance := by
  simp [Route.inBand, Route.inStationAt, and_assoc]

theorem inStationAt_iff {r : Route} {m : Nat} : r.inStationAt (1000 * m) = true ↔ r.zoneAt m = r.stationZone := by
  simp [Route.inStationAt]

/-- R47: a fix short of the berth by more than the tolerance is no arrival. -/
theorem arrives_short {r : Route} {tolerance speed : Nat} {t : Tracker}
    (h : r.depth t.pos / 1000 + tolerance < r.berthDepth) : arrives r tolerance speed t = false := by
  rw [Bool.eq_false_iff]
  intro ha
  obtain ⟨-, hle, -⟩ := arrives_iff.mp ha
  rw [Route.berthDistance] at hle
  omega

end Sys2Proof.Position
end

section
/-! The command ODOMETRY_ADVANCE (R36 to R38, R43 to R50, R55). -/
namespace Sys2Proof.Position
open Sys2Proof.Machine Sys2Proof.Safety Sys2Proof.RideLink

/-! ## The advance of an interval (R36) -/

/-- R36: halves are rounded up. -/
theorem rawAdvance_rounds (cL cR : Int) (scale : Nat) :
    2 * rawAdvance cL cR scale ≤ (cL + cR) * (scale : Int) + 1
      ∧ (cL + cR) * (scale : Int) < 2 * rawAdvance cL cR scale + 1 := by
  unfold rawAdvance
  generalize (cL + cR) * (scale : Int) = x
  omega

theorem clampAdvance_low {raw : Int} (h : raw < 0) : clampAdvance raw = (0, [.tally .speedClamp]) := if_pos h

theorem clampAdvance_within {raw : Int} (h0 : 0 ≤ raw) (h : raw ≤ 60000) : clampAdvance raw = (raw.toNat, []) := by
  rw [clampAdvance, if_neg (by omega), if_neg (by simpa [Config.maxAdvance] using h)]

theorem clampAdvance_high {raw : Int} (h : 60000 < raw) :
    clampAdvance raw = (60000, [.latch 19, .tally .speedClamp]) := by
  rw [clampAdvance, if_neg (by omega), if_pos (by simpa [Config.maxAdvance] using h)]
  rfl

/-! ## The tracker of an advance (R37, R43, R46 to R49; log 42) -/

theorem advanceResult_still (r : Route) (tolerance speed : Nat) (t : Tracker) : advanceResult r tolerance speed 0 t
    = finishChange r tolerance speed false []
        { kind := .advance, span := none, ground := none, code := none, oldZone := t.zoneIn r, arrival := false }
        (t.forward r 0) := rfl

theorem advanceResult_moving {a : Nat} (ha : a ≠ 0) (r : Route) (tolerance speed : Nat) (t : Tracker) :
    advanceResult r tolerance speed a t
      = finishChange r tolerance speed (berthForward r tolerance t.pos a true (advanceMisses r a t).1).2
          (advanceMisses r a t).2
          { kind := .advance, span := some (t.pos, a), ground := t.newGround r a, code := none, oldZone := t.zoneIn r,
            arrival := false }
          (berthForward r tolerance t.pos a true (advanceMisses r a t).1).1 := if_neg ha

/-- R37: an advance is a forward move that may change the confidence, the expected marker and the berth. -/
theorem advanceResult_frame (r : Route) (tolerance speed a : Nat) (t : Tracker) : ∃ c e d k l b g h,
    (advanceResult r tolerance speed a t).tracker = { t.forward r a with
      conf := c, expected := e, missIn := d, misses := k, lap := l, armed := b, atBerth := g, fb := h } := by
  by_cases ha : a = 0
  · subst ha
    rw [advanceResult_still]
    obtain ⟨_, _, _, _, hf⟩ := finishChange_frame r tolerance speed false []
      { kind := .advance, span := none, ground := none, code := none, oldZone := t.zoneIn r, arrival := false }
      (t.forward r 0)
    exact ⟨_, _, _, _, _, _, _, _, hf⟩
  · rw [advanceResult_moving ha]
    obtain ⟨_, _, _, _, _, hm⟩ := advanceMisses_frame r a t
    obtain ⟨_, _, _, _, hf⟩ := finishChange_frame r tolerance speed
      (berthForward r tolerance t.pos a true (advanceMisses r a t).1).2 (advanceMisses r a t).2
      { kind := .advance, span := some (t.pos, a), ground := t.newGround r a, code := none, oldZone := t.zoneIn r,
        arrival := false }
      (berthForward r tolerance t.pos a true (advanceMisses r a t).1).1
    rw [hf, berthForward_frame, hm]
    exact ⟨_, _, _, _, _, _, _, _, rfl⟩

theorem advanceResult_kind (r : Route) (tolerance speed a : Nat) (t : Tracker) :
    (advanceResult r tolerance speed a t).change.kind = .advance := by
  by_cases ha : a = 0
  · subst ha; rfl
  · rw [advanceResult_moving ha]; rfl

theorem advanceResult_latches (r : Route) (tolerance speed a : Nat) (t : Tracker) :
    LatchesKnown (advanceResult r tolerance speed a t).reports := by
  by_cases ha : a = 0
  · subst ha
    exact finishChange_latches _ _ _ _ _ _ latchesKnown_nil
  · rw [advanceResult_moving ha]
    exact finishChange_latches _ _ _ _ _ _ (advanceMisses_latches r a t)

/-! ## The command -/

/-- The state in which an interval's advance is applied: the counts are read and the clamps reported. -/
def intervalRead (left right : Half) (s : State) : State :=
  reportAll (s.advance left right).2 (readCounts left right s)

/-- A standing judgement does not read the wheel counts (R54 to R56). -/
theorem judgeStanding_counts (s : State) (left right : Half) :
    judgeStanding { s with tracker := { s.tracker with odoL := left, odoR := right } }
      = { judgeStanding s with tracker := { s.tracker with odoL := left, odoR := right } } := by
  have hr : State.readyMet { s with tracker := { s.tracker with odoL := left, odoR := right } } = s.readyMet := rfl
  unfold judgeStanding
  rw [hr]
  dsimp only
  split <;> (repeat' split) <;> rfl

/-- The fetch arbiter does not read the tracker (R167). -/
theorem arbitrate_tracker (s : State) (k : Tracker) :
    arbitrate { s with tracker := k } = { arbitrate s with tracker := k } := by
  have hl : State.loading { s with tracker := k } = s.loading := rfl
  unfold arbitrate
  rw [hl]
  dsimp only
  split
  · rfl
  · split <;> rfl

/-- R50: with nothing outstanding, the reading of the counts leaves nothing outstanding. -/
theorem settle_readCounts {s : State} (h : Still s) (left right : Half) :
    settle (readCounts left right s) = readCounts left right s :=
  Still.settle
    { notices := h.notices
      judged := by rw [readCounts, judgeStanding_counts, h.judged]
      granted := by rw [readCounts, arbitrate_tracker, h.granted] }

theorem exec_odometryAdvance_loading {s : State} (hl : s.loading = true) (hs : Still s) (left right : Half) :
    exec (.odometryAdvance left right) s = .next (readCounts left right s) := by
  show Host.Outcome.next (settle (odometry left right s)) = _
  rw [odometry, if_pos hl, settle_readCounts hs]

/-- The tracker of an interval before its move. -/
def countedTracker (a : Nat) (left right : Half) (t : Tracker) : Tracker :=
  Tracker.count a { t with odoL := left, odoR := right }

/-- The state of an interval before its move. -/
def countedState (left right : Half) (s : State) : State :=
  speedWithdraw (countAdvance (s.advance left right).1 (intervalRead left right s))

theorem intervalRead_calm (left right : Half) (s : State) : Calm (readCounts left right s) (intervalRead left right s) :=
  reportAll_calm _ _

theorem countedState_tracker (left right : Half) (s : State) :
    (countedState left right s).tracker = countedTracker (s.advance left right).1 left right s.tracker := by
  rw [countedState, (speedWithdraw_calm _).outside.tracker, countAdvance, (intervalRead_calm left right s).outside.tracker]
  rfl

/-- Beside the tracker and the claims, what comes before the move is aside. -/
theorem countedState_aside (left right : Half) (s : State) (k : Tracker) (cs : List Claim) :
    Aside { s with tracker := k, claims := cs } { countedState left right s with tracker := k, claims := cs } := by
  have hread := aside_withPlace (intervalRead_calm left right s).toAside k cs
  have hspeed := aside_withPlace
    (speedWithdraw_calm (countAdvance (s.advance left right).1 (intervalRead left right s))).toAside k cs
  exact hread.trans hspeed

/-- What is read of the state before a move, as it was before the interval. -/
theorem countedState_outside (left right : Half) (s : State) :
    (countedState left right s).settings = s.settings ∧ (countedState left right s).now = s.now
      ∧ (countedState left right s).claims = s.claims ∧ (countedState left right s).route = s.route
      ∧ (countedState left right s).cond.records.length = s.cond.records.length := by
  have h1 := intervalRead_calm left right s
  have h2 := speedWithdraw_calm (countAdvance (s.advance left right).1 (intervalRead left right s))
  exact ⟨h2.outside.settings.trans h1.outside.settings, h2.outside.now.trans h1.outside.now,
    h2.outside.claims.trans h1.outside.claims, h2.outside.route.trans h1.outside.route,
    h2.grows.length.trans h1.grows.length⟩

/-- R36: an advance above 60 mm latches ODOMETRY_FAULT before its move. -/
theorem countedState_latched {s : State} {left right : Half} (hlen : s.cond.records.length = 25)
    (h : Report.latch 19 ∈ (s.advance left right).2) : Latched (countedState left right s) 19 := by
  have h1 : Latched (intervalRead left right s) 19 :=
    reportAll_latched h (by decide) (s := readCounts left right s) (hlen ▸ (by decide : 19 ≤ 25))
  exact Latched.aside (s := countAdvance (s.advance left right).1 (intervalRead left right s)) h1
    (speedWithdraw_calm _).toAside

/-- R35, R50: without a placed front nothing is moved and nothing handed on. -/
theorem applyAdvance_unplaced {s : State} {left right : Half} (h : s.tracker.conf = .unfixed ∨ s.route = none) :
    applyAdvance (s.advance left right).1 (intervalRead left right s) = countedState left right s := by
  have htr := countedState_tracker left right s
  obtain ⟨-, -, -, hroute, -⟩ := countedState_outside left right s
  have hp : (countedState left right s).placed = none := by
    rw [State.placed, htr, hroute]
    rcases h with h | h
    · exact if_pos h
    · rw [h]
      exact ite_self _
  show (match (countedState left right s).placed with
    | none => countedState left right s
    | some (r, _) => _) = _
  rw [hp]

/-- R37, R45: a placed front is moved by the advance, and the change is handed on. -/
theorem applyAdvance_placed {s : State} {left right : Half} {r : Route} (hc : s.tracker.conf ≠ .unfixed)
    (hr : s.route = some r) :
    applyAdvance (s.advance left right).1 (intervalRead left right s)
      = handOn r (advanceResult r s.settings.berthTolerance
          ((countedTracker (s.advance left right).1 left right s.tracker).history.sum / 100) (s.advance left right).1
          (countedTracker (s.advance left right).1 left right s.tracker)) (countedState left right s) := by
  have htr := countedState_tracker left right s
  obtain ⟨hset, -, -, hroute, -⟩ := countedState_outside left right s
  have hp : (countedState left right s).placed = some (r, (countedState left right s).front) := by
    rw [State.placed, htr, hroute, hr]
    exact if_neg hc
  show (match (countedState left right s).placed with
    | none => countedState left right s
    | some (r, _) => handOn r (advanceResult r (countedState left right s).settings.berthTolerance
        (countedState left right s).speed (s.advance left right).1 (countedState left right s).tracker)
        (countedState left right s)) = _
  rw [hp, hset, State.speed, htr]

/-- The state after an interval outside the load. -/
def odometryTaken (left right : Half) (s : State) : State :=
  settle (applyAdvance (s.advance left right).1 (intervalRead left right s))

theorem exec_odometryAdvance {s : State} (hl : s.loading = false) (left right : Half) :
    exec (.odometryAdvance left right) s = .next (odometryTaken left right s) := by
  show Host.Outcome.next (settle (odometry left right s)) = _
  rw [odometry, hl]
  rfl

/-- After the counting of an interval the rest is aside, but for the tracker and the claims. -/
theorem odometryTaken_counted (left right : Half) (s : State) :
    Aside { countedState left right s with
      tracker := (odometryTaken left right s).tracker, claims := (odometryTaken left right s).claims }
      (odometryTaken left right s) := by
  unfold odometryTaken
  by_cases h : s.tracker.conf = .unfixed ∨ s.route = none
  · rw [applyAdvance_unplaced h]
    have hset := settle_aside (countedState left right s)
    rw [hset.outside.tracker, hset.outside.claims]
    exact hset
  · obtain ⟨hc, hr⟩ := not_or.mp h
    obtain ⟨r, hr⟩ := Option.ne_none_iff_exists'.mp hr
    rw [applyAdvance_placed hc hr]
    exact settle_handOn_aside r _ _

theorem odometryTaken_aside (left right : Half) (s : State) :
    Aside { s with tracker := (odometryTaken left right s).tracker, claims := (odometryTaken left right s).claims }
      (odometryTaken left right s) :=
  (countedState_aside left right s _ _).trans (odometryTaken_counted left right s)

/-- R36: an advance above 60 mm latches ODOMETRY_FAULT. -/
theorem odometryTaken_fault {s : State} {left right : Half} (hlen : s.cond.records.length = 25)
    (h : Report.latch 19 ∈ (s.advance left right).2) : Latched (odometryTaken left right s) 19 :=
  Latched.aside (s := { countedState left right s with
      tracker := (odometryTaken left right s).tracker, claims := (odometryTaken left right s).claims })
    (countedState_latched hlen h) (odometryTaken_counted left right s)

/-- R35, R50: without a placed front the counted tracker and the claims stand. -/
theorem odometryTaken_unplaced {s : State} {left right : Half} (h : s.tracker.conf = .unfixed ∨ s.route = none) :
    (odometryTaken left right s).tracker = countedTracker (s.advance left right).1 left right s.tracker
      ∧ (odometryTaken left right s).claims = s.claims := by
  obtain ⟨-, -, hclaims, -⟩ := countedState_outside left right s
  have hset := settle_aside (countedState left right s)
  rw [odometryTaken, applyAdvance_unplaced h]
  exact ⟨hset.outside.tracker.trans (countedState_tracker left right s), hset.outside.claims.trans hclaims⟩

/-- The result of the move of an interval. -/
def intervalResult (r : Route) (left right : Half) (s : State) : TrackerResult :=
  advanceResult r s.settings.berthTolerance
    ((countedTracker (s.advance left right).1 left right s.tracker).history.sum / 100) (s.advance left right).1
    (countedTracker (s.advance left right).1 left right s.tracker)

theorem odometryTaken_placed {s : State} {r : Route} (hc : s.tracker.conf ≠ .unfixed) (hr : s.route = some r)
    (left right : Half) : odometryTaken left right s
      = settle (handOn r (intervalResult r left right s) (countedState left right s)) := by
  rw [odometryTaken, applyAdvance_placed hc hr]
  rfl

/-- R81: the claims after the move of an interval. -/
theorem odometryTaken_claims {s : State} {r : Route} (hc : s.tracker.conf ≠ .unfixed) (hr : s.route = some r)
    (left right : Half) : (odometryTaken left right s).claims
      = claimsAfter r (intervalResult r left right s).change.span s.settings s.now
          ((intervalResult r left right s).tracker.pos / 1000) s.claims := by
  have hk : (intervalResult r left right s).change.kind ≠ .initialFix := by
    rw [intervalResult, advanceResult_kind]
    decide
  obtain ⟨hset, hnow, hclaims, -⟩ := countedState_outside left right s
  rw [odometryTaken_placed hc hr, settle_handOn_moved hk, hset, hnow, hclaims]

/-- R38, R44: whatever becomes of the move, an interval is counted, and the lateral offset stands. -/
theorem odometryTaken_frame (left right : Half) (s : State) : ∃ p q c e d k l b g h,
    (odometryTaken left right s).tracker = { countedTracker (s.advance left right).1 left right s.tracker with
      pos := p, retrace := q, conf := c, expected := e, missIn := d, misses := k, lap := l, armed := b, atBerth := g,
      fb := h } := by
  by_cases h : s.tracker.conf = .unfixed ∨ s.route = none
  · rw [(odometryTaken_unplaced h).1]
    exact ⟨_, _, _, _, _, _, _, _, _, _, rfl⟩
  · obtain ⟨hc, hr⟩ := not_or.mp h
    obtain ⟨r, hr⟩ := Option.ne_none_iff_exists'.mp hr
    obtain ⟨_, _, _, _, _, _, _, _, hf⟩ := advanceResult_frame r s.settings.berthTolerance
      ((countedTracker (s.advance left right).1 left right s.tracker).history.sum / 100) (s.advance left right).1
      (countedTracker (s.advance left right).1 left right s.tracker)
    rw [odometryTaken_placed hc hr, settle_handOn_tracker]
    exact ⟨_, _, _, _, _, _, _, _, _, _, hf⟩

/-- R37: a placed front moves forward by the advance, and the retrace is less by as much. -/
theorem odometryTaken_moved {s : State} {r : Route} (hc : s.tracker.conf ≠ .unfixed) (hr : s.route = some r)
    (left right : Half) :
    (odometryTaken left right s).tracker.pos = (s.tracker.pos + (s.advance left right).1) % (1000 * r.len)
      ∧ (odometryTaken left right s).tracker.retrace = s.tracker.retrace - (s.advance left right).1 := by
  obtain ⟨_, _, _, _, _, _, _, _, hf⟩ := advanceResult_frame r s.settings.berthTolerance
    ((countedTracker (s.advance left right).1 left right s.tracker).history.sum / 100) (s.advance left right).1
    (countedTracker (s.advance left right).1 left right s.tracker)
  rw [odometryTaken_placed hc hr, settle_handOn_tracker, intervalResult, hf]
  exact ⟨rfl, rfl⟩

/-- R36, R38, R44: the counts, the history, the distance since marker, and the lateral offset. -/
theorem odometryTaken_counts (left right : Half) (s : State) :
    let t := odometryTaken left right s
    let a := (s.advance left right).1
    t.tracker.odoL = left ∧ t.tracker.odoR = right ∧ t.tracker.history = s.tracker.history.tail ++ [a]
      ∧ t.tracker.since = min 65535000 (s.tracker.since + a) ∧ t.tracker.lateral = s.tracker.lateral := by
  obtain ⟨_, _, _, _, _, _, _, _, _, _, hf⟩ := odometryTaken_frame left right s
  dsimp only
  rw [hf]
  exact ⟨rfl, rfl, rfl, rfl, rfl⟩

/-! ## The rules of the move (R43, R46 to R48; log 42) -/

/-- Log 42: an advance of 0 µm changes nothing but what the check of R48 finds. -/
theorem advanceResult_zero (r : Route) (tolerance speed : Nat) (t : Tracker) :
    let res := advanceResult r tolerance speed 0 t
    res.reports = [] ∧ res.change.span = none ∧ res.change.ground = none ∧ res.change.code = none
    ∧ res.tracker.pos = t.pos % (1000 * r.len) ∧ res.tracker.conf = t.conf ∧ res.tracker.expected = t.expected
    ∧ res.tracker.missIn = t.missIn ∧ res.tracker.misses = t.misses ∧ res.tracker.retrace = t.retrace
    ∧ (res.change.arrival = false → res.tracker.armed = t.armed ∧ res.tracker.atBerth = t.atBerth ∧ res.tracker.lap = t.lap) := by
  intro res
  obtain ⟨_, _, _, _, hf⟩ := finishChange_frame r tolerance speed false []
    { kind := .advance, span := none, ground := none, code := none, oldZone := t.zoneIn r, arrival := false }
    (t.forward r 0)
  have hres : res.tracker = _ := hf
  rw [hres]
  refine ⟨rfl, rfl, rfl, rfl, rfl, rfl, rfl, rfl, rfl, rfl, fun ha => ?_⟩
  rw [← hres]
  have hpass : res.tracker = _ := finishChange_passing ha
  rw [hpass]
  exact ⟨rfl, rfl, rfl⟩

/-- R43: what a miss makes of an advance, in GOOD and RECKONING. -/
theorem advanceMisses_expected (r : Route) (a m : Nat) (t : Tracker) (hc : t.conf = .good ∨ t.conf = .reckoning)
    (he : t.expected = some m) :
    (a ≤ t.missIn → advanceMisses r a t = ({ t.forward r a with missIn := t.missIn - a }, []))
    ∧ (t.missIn < a → 2 ≤ t.misses → advanceMisses r a t
      = ({ t.forward r a with misses := 3, conf := .lost, expected := none, missIn := 0, atBerth := false },
        [.tally .markerMiss, .latch 7]))
    ∧ (∀ n, t.missIn < a → t.misses < 2 → r.markerAfter m = some n → a ≤ t.missIn + r.markerGap m n →
      advanceMisses r a t
        = ({ t.forward r a with
              misses := t.misses + 1, conf := .reckoning, expected := some n, missIn := t.missIn + r.markerGap m n - a },
          [.tally .markerMiss])) := by
  have hf : (t.forward r a).expected = some m := he
  rw [advanceMisses_counted hc]
  refine ⟨fun ha => missLoop_within hf ha [], fun ha hk => missLoop_third hf ha hk [], fun n ha hk hn hle => ?_⟩
  rw [missLoop_miss hf ha hk, hn]
  exact missLoop_within rfl hle _

theorem advanceMisses_unexpected (r : Route) (a : Nat) (t : Tracker)
    (h : t.conf = .unfixed ∨ t.conf = .lost ∨ t.expected = none) : advanceMisses r a t = (t.forward r a, []) := by
  by_cases hc : t.conf = .good ∨ t.conf = .reckoning
  · have he : (t.forward r a).expected = none := by
      rcases h with h | h | h
      · rw [h] at hc; exact absurd hc (by decide)
      · rw [h] at hc; exact absurd hc (by decide)
      · exact h
    rw [advanceMisses_counted hc]
    exact missLoop_none he _
  · obtain ⟨hg, hr⟩ := not_or.mp hc
    exact advanceMisses_uncounted hg hr

/-- R47, R49: arming, overshoot and at berth at a forward move. -/
theorem berthForward_rules (r : Route) (tolerance p f : Nat) (mayArm : Bool) (t : Tracker) :
    let entry := 1000 * (r.entry r.stationZone).getD 0
    let toEntry := if ahead (1000 * r.len) p entry = 0 then 1000 * r.len else ahead (1000 * r.len) p entry
    let crosses := mayArm = true ∧ (r.entry r.stationZone).isSome = true ∧ toEntry ≤ f
    let deep := ahead (1000 * r.len) entry p + f
    let b := berthForward r tolerance p f mayArm t
    (¬ crosses → t.armed = false → b.1.armed = false ∧ b.2 = false)
    ∧ (¬ crosses → t.armed = true → (b.1.armed = true ↔ deep / 1000 ≤ r.berthDepth + tolerance)
      ∧ (b.2 = true ↔ r.berthDepth + tolerance < deep / 1000))
    ∧ (crosses → t.armed = false → (b.1.armed = true ↔ (f - toEntry) / 1000 ≤ r.berthDepth + tolerance)
      ∧ (b.2 = true ↔ r.berthDepth + tolerance < (f - toEntry) / 1000))
    ∧ (b.1.atBerth = true ↔ t.atBerth = true ∧ deep / 1000 ≤ r.berthDepth + tolerance)
    ∧ b.1 = { t with armed := b.1.armed, atBerth := b.1.atBerth } := by
  intro entry toEntry crosses deep b
  have hcrosses : (mayArm && (r.entry r.stationZone).isSome && spanHas r.loop p f entry) = decide crosses := by
    rw [Bool.eq_iff_iff]
    simp only [Bool.and_eq_true, decide_eq_true_eq, spanHas_iff, and_assoc]
    exact Iff.rfl
  have harmed : b.1.armed = ((t.armed && !(t.armed && r.beyondBerth tolerance deep) || decide crosses)
      && !(decide crosses && r.beyondBerth tolerance (f - toEntry))) := by
    rw [← hcrosses]
    rfl
  have hover : b.2 = (t.armed && r.beyondBerth tolerance deep
      || decide crosses && r.beyondBerth tolerance (f - toEntry)) := by
    rw [← hcrosses]
    rfl
  refine ⟨fun hn ha => ?_, fun hn ha => ?_, fun hc ha => ?_, berthForward_atBerth, rfl⟩
  · simp [harmed, hover, hn, ha]
  · simp [harmed, hover, hn, ha, Route.beyondBerth]
  · simp [harmed, hover, hc, ha, Route.beyondBerth]

/-- R46, R48: the arrival and the berth distance at the end of a change. -/
theorem finishChange_rules (r : Route) (tolerance speed : Nat) (overshot : Bool) (reports : List Report) (ch : PosChange)
    (t : Tracker) :
    let res := finishChange r tolerance speed overshot reports ch t
    let left := r.berthDepth - ahead (1000 * r.len) (1000 * (r.entry r.stationZone).getD 0) t.pos / 1000
    (res.change.arrival = true ↔ t.armed = true ∧ left ≤ tolerance ∧ speed = 0)
    ∧ (res.change.arrival = true → res.tracker = { t with
        lap := t.lap + 1, armed := false, atBerth := true, fb := if overshot then some 0 else none })
    ∧ (res.change.arrival = false → res.tracker = { t with
        fb := if t.armed then some left else if overshot then some 0 else none })
    ∧ res.reports = reports ++ (if overshot then [.latch 24] else []) :=
  ⟨arrives_iff, finishChange_arrived, finishChange_passing, rfl⟩

/-- R37, R43, R47, R48: the parts of a whole move. -/
theorem advanceResult_parts (r : Route) (tolerance speed a : Nat) (t : Tracker) (ha : 0 < a) :
    let missed := advanceMisses r a t
    let berth := berthForward r tolerance t.pos a true missed.1
    let res := advanceResult r tolerance speed a t
    let last := finishChange r tolerance speed berth.2 missed.2 res.change berth.1
    res.change.span = some (t.pos, a) ∧ res.change.ground = t.newGround r a ∧ res.change.code = none
    ∧ res.tracker = last.tracker ∧ res.reports = last.reports ∧ res.change.arrival = last.change.arrival := by
  dsimp only
  rw [advanceResult_moving (Nat.ne_of_gt ha)]
  exact ⟨rfl, rfl, rfl, rfl, rfl, rfl⟩

/-- Settles O36: the rounding and the clamps, the command during and outside the load, the handing on, the advance of 0,
the whole move, its misses, its berth rules, and the end of a change. -/
theorem odometryAdvances : Obligations.OdometryAdvances := by
  refine ⟨fun cL cR scale => ⟨rawAdvance_rounds cL cR scale, clampAdvance_low, clampAdvance_within, clampAdvance_high⟩,
    fun s left right => ⟨fun hl hs => ?_, fun hl hs => ?_⟩, fun r res s => rfl, advanceResult_zero, advanceResult_parts,
    advanceMisses_expected, advanceMisses_unexpected, berthForward_rules, finishChange_rules⟩
  · exact exec_odometryAdvance_loading hl hs left right
  · obtain ⟨hL, hR, hhistory, hsince, hlateral⟩ := odometryTaken_counts left right s
    refine ⟨odometryTaken left right s, exec_odometryAdvance hl left right, hL, hR, hhistory, hsince, hlateral, fun h => ?_,
      fun r hc hr => odometryTaken_moved hc hr left right, fun h => ?_, fun r hc hr => ?_, odometryTaken_aside left right s⟩
    · obtain ⟨htracker, hclaims⟩ := odometryTaken_unplaced (left := left) (right := right) h
      rw [htracker]
      exact ⟨rfl, rfl, hclaims⟩
    · refine odometryTaken_fault hs.records ?_
      rw [State.advance, clampAdvance_high h]
      exact List.mem_cons_self
    · obtain ⟨-, -, -, -, hlen⟩ := countedState_outside left right s
      have htaken := odometryTaken_placed hc hr left right
      refine ⟨htaken ▸ settle_handOn_tracker _ _ _, odometryTaken_claims hc hr left right,
        fun id hid => htaken ▸ settle_handOn_latched (advanceResult_latches _ _ _ _ _) (hlen.trans hs.records) hid,
        fun ha => htaken ▸ settle_handOn_arrival ha _, htaken⟩

end Sys2Proof.Position
end

section
/-! The command MARKER_REPORT: discarded and unknown reports (R39), fixes (R40, R47, R49, R86) and corrections (R41, R42,
R47, R49). -/
namespace Sys2Proof.Position
open Sys2Proof.Machine Sys2Proof.Safety Sys2Proof.RideLink

/-! ## Which report is what (R39 to R43) -/

theorem exec_markerReport_discarded {s : State} {complete : Bool}
    (h : complete = false ∨ s.loading = true ∨ s.motion.state = .fault) (hs : Still s) (code : BitVec 12)
    (lateral : Half) : exec (.markerReport code lateral complete) s = .next s := by
  have hgate : (!complete || s.loading || decide (s.motion.state = .fault)) = true := by simpa [or_assoc] using h
  show Host.Outcome.next (settle (if _ then s else _)) = _
  rw [if_pos hgate, hs.settle]

theorem exec_markerReport {s : State} (hl : s.loading = false) (hf : s.motion.state ≠ .fault) (code : BitVec 12)
    (lateral : Half) :
    exec (.markerReport code lateral true) s = .next (settle (markerReport code.toNat lateral.toInt s)) := by
  have hgate : ¬ (!true || s.loading || decide (s.motion.state = .fault)) = true := by simp [hl, hf]
  show Host.Outcome.next (settle (if _ then s else _)) = _
  rw [if_neg hgate]

theorem toNat_ne_zero {w : Nat} {code : BitVec w} (h : code ≠ 0) : code.toNat ≠ 0 := fun e =>
  h (BitVec.eq_of_toNat_eq e)

/-- R39: a code that is 0 or that the route does not hold. -/
theorem markerReport_unknown {s : State} {r : Route} {code : Nat} (hr : s.route = some r)
    (h : code = 0 ∨ r.markerPos code = none) (lateral : Int) : markerReport code lateral s = tally .markerUnknown 1 s := by
  have hn : (if code = 0 then none else r.markerPos code) = none := by
    split
    · rfl
    · exact h.resolve_left ‹_›
  unfold markerReport
  rw [hr]
  dsimp only
  rw [hn]

/-- R40: a known code in UNFIXED and LOST. -/
theorem markerReport_fix {s : State} {r : Route} {code m : Nat} (hr : s.route = some r) (h0 : code ≠ 0)
    (hm : r.markerPos code = some m) (hc : s.tracker.conf = .unfixed ∨ s.tracker.conf = .lost) (lateral : Int) :
    markerReport code lateral s
      = handOn r (fixResult r s.settings.berthTolerance s.speed code lateral (1000 * m) s.tracker) s := by
  unfold markerReport
  rw [hr]
  dsimp only
  rw [if_neg h0, hm]
  exact if_pos (by simpa using hc)

/-- R41, R43: a known code in GOOD and RECKONING. -/
theorem markerReport_match {s : State} {r : Route} {code m : Nat} (hr : s.route = some r) (h0 : code ≠ 0)
    (hm : r.markerPos code = some m) (hc : s.tracker.conf = .good ∨ s.tracker.conf = .reckoning) (lateral : Int) :
    markerReport code lateral s
      = if s.tracker.expected = some code then
          handOn r (correctionResult r s.settings.berthTolerance s.speed code lateral (1000 * m) s.tracker) s
        else tally .markerUnknown 1 s := by
  unfold markerReport
  rw [hr]
  dsimp only
  rw [if_neg h0, hm]
  exact if_neg (by rcases hc with hc | hc <;> simp [hc])

/-! ## Moves to a marker (R37, R40 to R42) -/

/-- A forward move to a marker whose report is accepted there. -/
theorem accept_forward {r : Route} {m : Nat} {t : Tracker} (hp : t.pos < r.loop) (hm : m < r.loop) (code : Nat)
    (lateral : Int) : (t.forward r (ahead r.loop t.pos m)).accept r code lateral
      = { t.accept r code lateral with pos := m, retrace := t.retrace - ahead r.loop t.pos m } := by
  rw [Tracker.forward, add_ahead hp hm]
  rfl

/-- A backward move to a marker whose report is accepted there. -/
theorem accept_backward {r : Route} {m : Nat} {t : Tracker} (hp : t.pos < r.loop) (hm : m < r.loop) (code : Nat)
    (lateral : Int) : (t.backward r (ahead r.loop m t.pos)).accept r code lateral
      = { t.accept r code lateral with pos := m, retrace := min (500 * r.len) (t.retrace + ahead r.loop m t.pos) } := by
  rw [Tracker.backward, sub_ahead hp hm]
  rfl

/-! ## The tracker of a fix (R40, R47, R49) -/

/-- R47, R49: the berth after a fix at route position m µm, from the zone of the front before it. -/
def fixBerth (r : Route) (tolerance : Nat) (before : Option Nat) (m : Nat) (q : Tracker) : Tracker :=
  { q with
    armed := (q.armed && r.inStationAt m) || fixArms r tolerance before m
    atBerth := r.inBand tolerance m }

/-- What a fix gives: the end of the change `ch` at a tracker `q` that stands at the marker, with the berth judged. -/
structure FixEnds (r : Route) (tolerance speed code : Nat) (lateral : Int) (m : Nat) (t : Tracker) (overshot : Bool)
    (ch : PosChange) (q : Tracker) : Prop where
  result : fixResult r tolerance speed code lateral m t
    = finishChange r tolerance speed overshot [] ch (fixBerth r tolerance (t.zoneIn r) m q)
  place : ∃ d b k, q = { t.accept r code lateral with pos := m, retrace := d, armed := b, atBerth := k }
  initial : t.conf = .unfixed → ch.kind = .initialFix ∧ q.retrace = 0 ∧ q.armed = t.armed
  moved : t.conf ≠ .unfixed → ch.kind = .fix
  unarmed : r.inBand tolerance m = true → t.armed = false → q.armed = false

/-- R40: an initial fix is no move; from LOST the shorter way round is taken. -/
theorem fixResult_ends {r : Route} {m : Nat} {t : Tracker} (hm : m < r.loop) (hp : t.pos < r.loop)
    (tolerance speed code : Nat) (lateral : Int) :
    ∃ overshot ch q, FixEnds r tolerance speed code lateral m t overshot ch q := by
  by_cases hu : t.conf = .unfixed
  · exact ⟨_, _, _,
      { result := if_pos hu
        place := ⟨0, t.armed, t.atBerth, rfl⟩
        initial := fun _ => ⟨rfl, rfl, rfl⟩
        moved := fun h => absurd hu h
        unarmed := fun _ h => h }⟩
  · by_cases hf : ahead r.loop t.pos m ≤ 500 * r.len
    · have hmove := accept_forward hp hm code lateral
      refine ⟨_, _, _,
        { result := (if_neg hu).trans (if_pos hf)
          place := ⟨t.retrace - ahead r.loop t.pos m, _, _, (berthForward_frame _ _ _ _ _ _).trans (by rw [hmove])⟩
          initial := fun h => absurd h hu
          moved := fun _ => rfl
          unarmed := fun hb ha => ?_ }⟩
      rw [hb]
      exact berthForward_unarmed (t := (t.forward r (ahead r.loop t.pos m)).accept r code lateral) ha
    · have hb : r.loop - ahead r.loop t.pos m = ahead r.loop m t.pos := loop_sub_ahead hp hm (by omega)
      have hmove := accept_backward hp hm code lateral
      rw [← hb] at hmove
      exact ⟨_, _, _,
        { result := (if_neg hu).trans (if_neg hf)
          place := ⟨_, t.armed, t.atBerth, hmove⟩
          initial := fun h => absurd h hu
          moved := fun _ => rfl
          unarmed := fun _ ha => ha }⟩

/-- R49: a fix within the berth band arms nothing. -/
theorem fixArms_band {r : Route} {tolerance m : Nat} (h : r.inBand tolerance m = true) (before : Option Nat) :
    fixArms r tolerance before m = false := by
  simp only [Route.inBand, Bool.and_eq_true, decide_eq_true_eq] at h
  obtain ⟨⟨-, hle⟩, -⟩ := h
  rw [fixArms, decide_eq_false (Nat.not_lt.mpr hle), Bool.and_false]

/-- R47: an initial fix arms exactly where it stands in the station zone short of the berth by more than the tolerance. -/
theorem fixArms_initial {r : Route} {tolerance m : Nat} : fixArms r tolerance none (1000 * m) = true
    ↔ r.zoneAt m = r.stationZone ∧ r.depth (1000 * m) / 1000 + tolerance < r.berthDepth := by
  simp [fixArms, inStationAt_iff]

section
variable {r : Route} {tolerance speed code m : Nat} {lateral : Int} {t : Tracker} {overshot : Bool} {ch : PosChange}
  {q : Tracker}

/-- R40, R44: where a fix leaves the front, and what it leaves as it was. -/
theorem FixEnds.frame (h : FixEnds r tolerance speed code lateral m t overshot ch q) : ∃ l b k g,
    (fixResult r tolerance speed code lateral m t).tracker
      = { t.accept r code lateral with pos := m, retrace := q.retrace, lap := l, armed := b, atBerth := k, fb := g } := by
  obtain ⟨d, b, k, hq⟩ := h.place
  obtain ⟨_, _, _, _, hf⟩ := finishChange_frame r tolerance speed overshot [] ch (fixBerth r tolerance (t.zoneIn r) m q)
  rw [h.result, hf, hq]
  exact ⟨_, _, _, _, rfl⟩

theorem FixEnds.arrival (h : FixEnds r tolerance speed code lateral m t overshot ch q) :
    (fixResult r tolerance speed code lateral m t).change.arrival
      = arrives r tolerance speed (fixBerth r tolerance (t.zoneIn r) m q) := by
  rw [h.result, finishChange_change]

theorem FixEnds.kind (h : FixEnds r tolerance speed code lateral m t overshot ch q) :
    (fixResult r tolerance speed code lateral m t).change.kind = ch.kind := by
  rw [h.result, finishChange_change]

/-- Without an arrival the berth stands as the fix judges it, and the lap stands. -/
theorem FixEnds.passing (h : FixEnds r tolerance speed code lateral m t overshot ch q)
    (ha : arrives r tolerance speed (fixBerth r tolerance (t.zoneIn r) m q) = false) :
    let res := (fixResult r tolerance speed code lateral m t).tracker
    res.atBerth = r.inBand tolerance m
      ∧ res.armed = ((q.armed && r.inStationAt m) || fixArms r tolerance (t.zoneIn r) m) ∧ res.lap = t.lap := by
  obtain ⟨d, b, k, hq⟩ := h.place
  have hlap : q.lap = t.lap := hq ▸ rfl
  dsimp only
  rw [h.result, finishChange_passing ha]
  exact ⟨rfl, rfl, hlap⟩

/-- R49, log 37: a fix of an unarmed berth into the berth band. -/
theorem FixEnds.band (h : FixEnds r tolerance speed code lateral m t overshot ch q)
    (hb : r.inBand tolerance m = true) (hu : t.armed = false) :
    let res := (fixResult r tolerance speed code lateral m t).tracker
    res.atBerth = true ∧ res.armed = false ∧ res.lap = t.lap := by
  have harmed : ((q.armed && r.inStationAt m) || fixArms r tolerance (t.zoneIn r) m) = false := by
    rw [h.unarmed hb hu, fixArms_band hb]
    rfl
  obtain ⟨hberth, hres, hlap⟩ := h.passing (Bool.eq_false_iff.mpr fun ha =>
    Bool.eq_false_iff.mp harmed (arrives_iff.mp ha).1)
  exact ⟨hberth.trans hb, hres.trans harmed, hlap⟩

end

/-- R47: an initial fix of an unarmed berth. -/
theorem FixEnds.arms {r : Route} {tolerance speed code m : Nat} {lateral : Int} {t : Tracker} {overshot : Bool}
    {ch : PosChange} {q : Tracker} (h : FixEnds r tolerance speed code lateral (1000 * m) t overshot ch q)
    (hc : t.conf = .unfixed) (hu : t.armed = false) :
    let res := (fixResult r tolerance speed code lateral (1000 * m) t).tracker
    res.lap = t.lap
      ∧ (res.armed = true ↔ r.zoneAt m = r.stationZone ∧ r.depth (1000 * m) / 1000 + tolerance < r.berthDepth) := by
  obtain ⟨d, b, k, hq⟩ := h.place
  obtain ⟨-, -, hqu⟩ := h.initial hc
  have hbefore : t.zoneIn r = none := if_pos hc
  have harmed : ((q.armed && r.inStationAt (1000 * m)) || fixArms r tolerance (t.zoneIn r) (1000 * m))
      = fixArms r tolerance none (1000 * m) := by
    rw [hqu, hu, hbefore, Bool.false_and, Bool.false_or]
  obtain ⟨-, hres, hlap⟩ := h.passing (Bool.eq_false_iff.mpr fun ha => by
    obtain ⟨hb, -, -⟩ := arrives_iff.mp ha
    have hshort := (fixArms_initial.mp (harmed.symm.trans hb)).2
    have hpos : (fixBerth r tolerance (t.zoneIn r) (1000 * m) q).pos = 1000 * m := hq ▸ rfl
    exact Bool.eq_false_iff.mp (arrives_short (hpos.symm ▸ hshort)) ha)
  dsimp only
  rw [hres, harmed]
  exact ⟨hlap, fixArms_initial⟩

/-! ## The command at a fix -/

/-- R86: the zones of an initial fix. -/
theorem initialZones_eq (r : Route) (bodyLength front : Nat) : initialZones r bodyLength front
    = (if r.zoneAt front = 255 then [] else [r.zoneAt front])
      ++ (if r.zoneAt (r.tailOf bodyLength front) = 255 ∨ r.zoneAt (r.tailOf bodyLength front) = r.zoneAt front then []
        else [r.zoneAt (r.tailOf bodyLength front)]) := by
  simp [initialZones]

/-- The result of a fix at the marker at route position m mm. -/
def fixOf (r : Route) (code : Nat) (lateral : Int) (m : Nat) (s : State) : TrackerResult :=
  fixResult r s.settings.berthTolerance s.speed code lateral (1000 * m) s.tracker

/-- The state after a fix. -/
def fixTaken (r : Route) (code : Nat) (lateral : Int) (m : Nat) (s : State) : State :=
  settle (handOn r (fixOf r code lateral m s) s)

section
variable {r : Route} {m : Nat} {s : State} (hm : 1000 * m < 1000 * r.len) (hp : s.tracker.pos < 1000 * r.len)
  (code : Nat) (lateral : Int)
include hm hp

/-- R40, R44: the place, the confidence and the markers after a fix; the history stands. -/
theorem fixTaken_place :
    let t := fixTaken r code lateral m s
    t.tracker.pos = 1000 * m ∧ t.tracker.conf = .good ∧ t.tracker.misses = 0
      ∧ t.tracker.expected = r.markerAfter code ∧ t.tracker.lateral = clampInt (-200) 200 lateral
      ∧ t.tracker.since = 0 ∧ t.tracker.history = s.tracker.history
      ∧ (s.tracker.conf = .unfixed → t.tracker.retrace = 0) := by
  obtain ⟨_, _, q, hfix⟩ := fixResult_ends (r := r) hm hp s.settings.berthTolerance s.speed code lateral
  obtain ⟨_, _, _, _, hf⟩ := hfix.frame
  dsimp only
  rw [fixTaken, settle_handOn_tracker, fixOf, hf]
  exact ⟨rfl, rfl, rfl, rfl, rfl, rfl, rfl, fun hu => (hfix.initial hu).2.1⟩

/-- The front of a fix, in mm. -/
theorem fixOf_front : (fixOf r code lateral m s).tracker.pos / 1000 = m := by
  obtain ⟨hpos, -⟩ := fixTaken_place hm hp code lateral
  rw [fixTaken, settle_handOn_tracker] at hpos
  rw [hpos, Nat.mul_div_cancel_left m (by decide)]

/-- R49: without an arrival at berth is yes exactly in the berth band. -/
theorem fixTaken_atBerth (ha : (fixOf r code lateral m s).change.arrival = false) :
    (fixTaken r code lateral m s).tracker.atBerth = r.inBand s.settings.berthTolerance (1000 * m) := by
  obtain ⟨_, _, _, hfix⟩ := fixResult_ends (r := r) hm hp s.settings.berthTolerance s.speed code lateral
  rw [fixTaken, settle_handOn_tracker]
  exact (hfix.passing (hfix.arrival.symm.trans ha)).1

/-- R49, log 37: a fix of an unarmed berth into the berth band. -/
theorem fixTaken_band (hb : r.inBand s.settings.berthTolerance (1000 * m) = true) (hu : s.tracker.armed = false) :
    let t := fixTaken r code lateral m s
    t.tracker.atBerth = true ∧ t.tracker.armed = false ∧ t.tracker.lap = s.tracker.lap := by
  obtain ⟨_, _, _, hfix⟩ := fixResult_ends (r := r) hm hp s.settings.berthTolerance s.speed code lateral
  dsimp only
  rw [fixTaken, settle_handOn_tracker]
  exact hfix.band hb hu

/-- R47: an initial fix of an unarmed berth. -/
theorem fixTaken_arms (hu : s.tracker.armed = false) (hc : s.tracker.conf = .unfixed) :
    let t := fixTaken r code lateral m s
    t.tracker.lap = s.tracker.lap ∧ (t.tracker.armed = true ↔ r.zoneAt m = r.stationZone
      ∧ r.depth (1000 * m) / 1000 + s.settings.berthTolerance < r.berthDepth) := by
  obtain ⟨_, _, _, hfix⟩ := fixResult_ends (r := r) hm hp s.settings.berthTolerance s.speed code lateral
  dsimp only
  rw [fixTaken, settle_handOn_tracker]
  exact hfix.arms hc hu

/-- R81: the claims after a fix from LOST. -/
theorem fixTaken_claims (hc : s.tracker.conf = .lost) : (fixTaken r code lateral m s).claims
    = claimsAfter r (fixOf r code lateral m s).change.span s.settings s.now m s.claims := by
  obtain ⟨_, _, _, hfix⟩ := fixResult_ends (r := r) hm hp s.settings.berthTolerance s.speed code lateral
  have hk : (fixOf r code lateral m s).change.kind ≠ .initialFix := by
    rw [fixOf, hfix.kind, hfix.moved (by rw [hc]; decide)]
    decide
  rw [fixTaken, settle_handOn_moved hk, fixOf_front hm hp]

theorem fixOf_initial (hc : s.tracker.conf = .unfixed) : (fixOf r code lateral m s).change.kind = .initialFix := by
  obtain ⟨_, _, _, hfix⟩ := fixResult_ends (r := r) hm hp s.settings.berthTolerance s.speed code lateral
  exact hfix.kind.trans (hfix.initial hc).1

/-- R86: the claims after an initial fix. -/
theorem fixTaken_initial (hc : s.tracker.conf = .unfixed) :
    (fixTaken r code lateral m s).claims = initialList r s.settings s.now m s.claims := by
  rw [fixTaken, settle_handOn_initial (fixOf_initial hm hp code lateral hc), fixOf_front hm hp]

/-- R86: a zone whose holders fill its capacity latches ZONE_CONFLICT at an initial fix. -/
theorem fixTaken_conflict (hc : s.tracker.conf = .unfixed) (hs : TablesOk s) {z : Nat}
    (hz : z ∈ initialZones r s.settings.bodyLength m) (hfull : r.capacity z ≤ heldCount s z) :
    Latched (fixTaken r code lateral m s) 13 :=
  settle_handOn_conflict (fixOf_initial hm hp code lateral hc) hs.records (by rwa [fixOf_front hm hp]) hfull

end

/-- Settles O37: a discarded report, an unknown code, a fix with its berth and its claims, and what an accepted report
writes. -/
theorem markerFixes : Obligations.MarkerFixes := by
  refine ⟨fun s code lateral complete => ⟨fun h hs => exec_markerReport_discarded h hs code lateral, ?_, ?_⟩, accept_eq⟩
  · rintro r rfl hl hf hr hunknown
    have hcode : code.toNat = 0 ∨ r.markerPos code.toNat = none := hunknown.imp (fun h => by rw [h]; rfl) id
    rw [exec_markerReport hl hf, markerReport_unknown hr hcode]
    exact ⟨_, rfl, rfl, (tally_calm _ _ s).toAside.trans (settle_aside _)⟩
  · rintro r m rfl hl hf hr h0 hpos hc hm hp
    obtain ⟨hplace, hconf, hmisses, hexpected, hlateral, hsince, hhistory, hretrace⟩ :=
      fixTaken_place hm hp code.toNat lateral.toInt
    rw [exec_markerReport hl hf, markerReport_fix hr (toNat_ne_zero h0) hpos hc]
    refine ⟨fixTaken r code.toNat lateral.toInt m s, rfl, hplace, hconf, hmisses, hexpected, hlateral, hsince, hhistory,
      hretrace, ⟨settle_handOn_tracker _ _ _, fun ha => ?_, fun hb => ?_, fixTaken_arms hm hp _ _, fixTaken_claims hm hp _ _,
        fun hu hnone => ?_, rfl⟩, settle_handOn_aside _ _ _⟩
    · rw [fixTaken_atBerth hm hp _ _ ha]
      exact inBand_iff
    · exact fixTaken_band hm hp _ _ (inBand_iff.mpr hb)
    · have hzones := initialZones_eq r s.settings.bodyLength m
      have hclaims := fixTaken_initial hm hp code.toNat lateral.toInt hu
      have hconflict := fun hs z => fixTaken_conflict (z := z) hm hp code.toNat lateral.toInt hu hs
      rw [initialList, hnone, hzones] at hclaims
      rw [hzones] at hconflict
      exact ⟨hclaims, hconflict⟩

end Sys2Proof.Position
end

section
/-! The command MARKER_REPORT in GOOD and RECKONING (R41, R42, R47, R49). -/
namespace Sys2Proof.Position
open Sys2Proof.Machine Sys2Proof.Safety Sys2Proof.RideLink

/-! ## The tracker of a correction -/

/-- R41: the change of a correction up to 150 mm backward. -/
def backwardChange (r : Route) (code : Nat) (t : Tracker) : PosChange :=
  { kind := .backwardMatch, span := none, ground := none, code := some code, oldZone := t.zoneIn r, arrival := false }

/-- R41, R42: the change of a correction forward by f µm. -/
def forwardChange (r : Route) (code f : Nat) (t : Tracker) : PosChange :=
  { kind := if 150000 < f then .jump else .forwardMatch, span := some (t.pos, f), ground := t.newGround r f,
    code := some code, oldZone := t.zoneIn r, arrival := false }

/-- R41, R47, R49: the tracker of a backward correction before its arrival check. -/
def backwardBerth (r : Route) (tolerance behind m : Nat) (q : Tracker) : Tracker :=
  { q with armed := q.armed && (behind = 0 || r.inStationAt m), atBerth := q.atBerth && r.inBand tolerance m }

/-- R41, R47, R49: the tracker of a forward correction from p by f before its arrival check. -/
def forwardBerth (r : Route) (tolerance p f m : Nat) (q : Tracker) : Tracker :=
  { (berthForward r tolerance p f true q).1 with
    atBerth := (berthForward r tolerance p f true q).1.atBerth && r.inBand tolerance m }

section
variable {r : Route} {m : Nat} {t : Tracker} (hp : t.pos < r.loop) (hm : m < r.loop) (tolerance speed code : Nat)
  (lateral : Int)
include hp hm

theorem correctionResult_backward (h : ahead r.loop m t.pos ≤ 150000) :
    correctionResult r tolerance speed code lateral m t
      = finishChange r tolerance speed false [] (backwardChange r code t)
          (backwardBerth r tolerance (ahead r.loop m t.pos) m
            ((t.backward r (ahead r.loop m t.pos)).accept r code lateral)) := by
  have hpos : ((t.backward r (ahead r.loop m t.pos)).accept r code lateral).pos = m := by rw [accept_backward hp hm]
  rw [correctionResult, if_pos (show _ ≤ Config.markerWindow from h)]
  dsimp only [backwardBerth, backwardChange]
  rw [hpos]

theorem correctionResult_forward (h : 150000 < ahead r.loop m t.pos) :
    correctionResult r tolerance speed code lateral m t
      = finishChange r tolerance speed
          (berthForward r tolerance t.pos (ahead r.loop t.pos m) true
            ((t.forward r (ahead r.loop t.pos m)).accept r code lateral)).2
          (if 150000 < ahead r.loop t.pos m then [.latch 6] else []) (forwardChange r code (ahead r.loop t.pos m) t)
          (forwardBerth r tolerance t.pos (ahead r.loop t.pos m) m
            ((t.forward r (ahead r.loop t.pos m)).accept r code lateral)) := by
  have hpos : ((t.forward r (ahead r.loop t.pos m)).accept r code lateral).pos = m := by rw [accept_forward hp hm]
  rw [correctionResult, if_neg (show ¬ _ ≤ Config.markerWindow from Nat.not_le.mpr h)]
  dsimp only
  rw [hpos]
  simp only [decide_eq_true_eq]
  rfl

/-- R41, R44: where a correction leaves the front, and what it leaves as it was. -/
theorem correctionResult_frame : ∃ d l b k g, (correctionResult r tolerance speed code lateral m t).tracker
    = { t.accept r code lateral with pos := m, retrace := d, lap := l, armed := b, atBerth := k, fb := g } := by
  by_cases h : ahead r.loop m t.pos ≤ 150000
  · rw [correctionResult_backward hp hm _ _ _ _ h, accept_backward hp hm]
    obtain ⟨_, _, _, _, hf⟩ := finishChange_frame r tolerance speed false [] (backwardChange r code t)
      (backwardBerth r tolerance (ahead r.loop m t.pos) m { t.accept r code lateral with
        pos := m, retrace := min (500 * r.len) (t.retrace + ahead r.loop m t.pos) })
    exact ⟨_, _, _, _, _, hf⟩
  · rw [correctionResult_forward hp hm _ _ _ _ (Nat.not_le.mp h), accept_forward hp hm]
    obtain ⟨_, _, _, _, hf⟩ := finishChange_frame r tolerance speed
      (berthForward r tolerance t.pos (ahead r.loop t.pos m) true { t.accept r code lateral with
        pos := m, retrace := t.retrace - ahead r.loop t.pos m }).2
      (if 150000 < ahead r.loop t.pos m then [.latch 6] else []) (forwardChange r code (ahead r.loop t.pos m) t)
      (forwardBerth r tolerance t.pos (ahead r.loop t.pos m) m { t.accept r code lateral with
        pos := m, retrace := t.retrace - ahead r.loop t.pos m })
    rw [hf, forwardBerth, berthForward_frame]
    exact ⟨_, _, _, _, _, rfl⟩

theorem correctionResult_kind :
    (correctionResult r tolerance speed code lateral m t).change.kind ≠ .initialFix := by
  by_cases h : ahead r.loop m t.pos ≤ 150000
  · rw [correctionResult_backward hp hm _ _ _ _ h]
    exact nofun
  · rw [correctionResult_forward hp hm _ _ _ _ (Nat.not_le.mp h), finishChange_change]
    dsimp only [forwardChange]
    split <;> exact nofun

theorem correctionResult_code : (correctionResult r tolerance speed code lateral m t).change.code = some code := by
  by_cases h : ahead r.loop m t.pos ≤ 150000
  · rw [correctionResult_backward hp hm _ _ _ _ h]
    rfl
  · rw [correctionResult_forward hp hm _ _ _ _ (Nat.not_le.mp h)]
    rfl

theorem correctionResult_latches : LatchesKnown (correctionResult r tolerance speed code lateral m t).reports := by
  by_cases h : ahead r.loop m t.pos ≤ 150000
  · rw [correctionResult_backward hp hm _ _ _ _ h]
    exact finishChange_latches _ _ _ _ _ _ latchesKnown_nil
  · rw [correctionResult_forward hp hm _ _ _ _ (Nat.not_le.mp h)]
    refine finishChange_latches _ _ _ _ _ _ fun id hid => ?_
    split at hid
    · obtain rfl : id = 6 := by simpa using hid
      decide
    · exact absurd hid List.not_mem_nil

/-- R42: a correction of more than 150 mm both ways round reports MARKER_JUMP. -/
theorem correctionResult_jump (hb : 150000 < ahead r.loop m t.pos) (hf : 150000 < ahead r.loop t.pos m) :
    Report.latch 6 ∈ (correctionResult r tolerance speed code lateral m t).reports := by
  rw [correctionResult_forward hp hm _ _ _ _ hb, if_pos hf]
  exact List.mem_append_left _ List.mem_cons_self

/-- R37, R41, R47: a correction up to 150 mm behind. -/
theorem correctionResult_behind (h : ahead r.loop m t.pos ≤ 150000) :
    let res := correctionResult r tolerance speed code lateral m t
    res.change.span = none ∧ res.change.ground = none
      ∧ res.tracker.retrace = min (500 * r.len) (t.retrace + ahead r.loop m t.pos)
      ∧ (0 < ahead r.loop m t.pos → r.inStationAt m = false → res.tracker.armed = false) := by
  obtain ⟨_, _, _, _, hf⟩ := finishChange_frame r tolerance speed false [] (backwardChange r code t)
    (backwardBerth r tolerance (ahead r.loop m t.pos) m ((t.backward r (ahead r.loop m t.pos)).accept r code lateral))
  dsimp only
  rw [correctionResult_backward hp hm _ _ _ _ h]
  refine ⟨rfl, rfl, by rw [hf]; rfl, fun hpos hout => ?_⟩
  have hunarmed : (backwardBerth r tolerance (ahead r.loop m t.pos) m
      ((t.backward r (ahead r.loop m t.pos)).accept r code lateral)).armed = false := by
    simp [backwardBerth, hout, Nat.ne_of_gt hpos]
  rw [finishChange_passing (Bool.eq_false_iff.mpr fun ha =>
    Bool.eq_false_iff.mp hunarmed (arrives_iff.mp ha).1)]
  exact hunarmed

/-- R37, R41: any other correction is a forward move. -/
theorem correctionResult_ahead (h : 150000 < ahead r.loop m t.pos) :
    let res := correctionResult r tolerance speed code lateral m t
    res.change.span = some (t.pos, ahead r.loop t.pos m) ∧ res.change.ground = t.newGround r (ahead r.loop t.pos m)
      ∧ res.tracker.retrace = t.retrace - ahead r.loop t.pos m := by
  obtain ⟨_, _, _, _, hf⟩ := finishChange_frame r tolerance speed
    (berthForward r tolerance t.pos (ahead r.loop t.pos m) true
      ((t.forward r (ahead r.loop t.pos m)).accept r code lateral)).2
    (if 150000 < ahead r.loop t.pos m then [.latch 6] else []) (forwardChange r code (ahead r.loop t.pos m) t)
    (forwardBerth r tolerance t.pos (ahead r.loop t.pos m) m
      ((t.forward r (ahead r.loop t.pos m)).accept r code lateral))
  dsimp only
  rw [correctionResult_forward hp hm _ _ _ _ h]
  exact ⟨rfl, rfl, by rw [hf]; rfl⟩

/-- R49: without an arrival a correction keeps at berth only within the berth band. -/
theorem correctionResult_atBerth
    (ha : (correctionResult r tolerance speed code lateral m t).change.arrival = false)
    (hb : (correctionResult r tolerance speed code lateral m t).tracker.atBerth = true) :
    t.atBerth = true ∧ r.inBand tolerance m = true := by
  by_cases h : ahead r.loop m t.pos ≤ 150000
  · rw [correctionResult_backward hp hm _ _ _ _ h] at ha hb
    rw [finishChange_passing ha] at hb
    exact Bool.and_eq_true_iff.mp hb
  · rw [correctionResult_forward hp hm _ _ _ _ (Nat.not_le.mp h)] at ha hb
    rw [finishChange_passing ha] at hb
    obtain ⟨hmoved, hband⟩ := Bool.and_eq_true_iff.mp hb
    exact ⟨(berthForward_atBerth.mp hmoved).1, hband⟩

end

/-! ## The command at the expected marker -/

/-- The result of a correction at the marker at route position m mm. -/
def correctionOf (r : Route) (code : Nat) (lateral : Int) (m : Nat) (s : State) : TrackerResult :=
  correctionResult r s.settings.berthTolerance s.speed code lateral (1000 * m) s.tracker

/-- The state after a correction. -/
def correctionTaken (r : Route) (code : Nat) (lateral : Int) (m : Nat) (s : State) : State :=
  settle (handOn r (correctionOf r code lateral m s) s)

section
variable {r : Route} {m : Nat} {s : State} (hm : 1000 * m < 1000 * r.len) (hp : s.tracker.pos < 1000 * r.len)
  (code : Nat) (lateral : Int)
include hm hp

/-- R41, R44: the place, the confidence and the markers after a correction; the history stands. -/
theorem correctionTaken_place :
    let t := correctionTaken r code lateral m s
    t.tracker.pos = 1000 * m ∧ t.tracker.conf = .good ∧ t.tracker.misses = 0
      ∧ t.tracker.expected = r.markerAfter code ∧ t.tracker.lateral = clampInt (-200) 200 lateral
      ∧ t.tracker.since = 0 ∧ t.tracker.history = s.tracker.history := by
  obtain ⟨_, _, _, _, _, hf⟩ := correctionResult_frame (r := r) hp hm s.settings.berthTolerance s.speed code lateral
  dsimp only
  rw [correctionTaken, settle_handOn_tracker, correctionOf, hf]
  exact ⟨rfl, rfl, rfl, rfl, rfl, rfl, rfl⟩

/-- R81: the claims after a correction. -/
theorem correctionTaken_claims : (correctionTaken r code lateral m s).claims
    = claimsAfter r (correctionOf r code lateral m s).change.span s.settings s.now m s.claims := by
  obtain ⟨hpos, -⟩ := correctionTaken_place hm hp code lateral
  have hkind : (correctionOf r code lateral m s).change.kind ≠ .initialFix :=
    correctionResult_kind (r := r) hp hm _ _ _ _
  rw [correctionTaken, settle_handOn_tracker] at hpos
  rw [correctionTaken, settle_handOn_moved hkind, hpos,
    Nat.mul_div_cancel_left m (by decide)]

theorem correctionTaken_latched (hs : TablesOk s) {id : Nat}
    (h : Report.latch id ∈ (correctionOf r code lateral m s).reports) : Latched (correctionTaken r code lateral m s) id :=
  settle_handOn_latched (correctionResult_latches (r := r) hp hm _ _ _ _) hs.records h

end

/-- Settles O38: another known code, and the expected code with its correction, its berth and its claims. -/
theorem markerCorrects : Obligations.MarkerCorrects := by
  intro s code lateral r m hl hf hr h0 hpos hc hm hp
  rw [exec_markerReport hl hf, markerReport_match hr (toNat_ne_zero h0) hpos hc]
  refine ⟨fun hne => ?_, fun he hs => ?_⟩
  · rw [if_neg hne]
    exact ⟨_, rfl, rfl, (tally_calm _ _ s).toAside.trans (settle_aside _)⟩
  · rw [if_pos he]
    obtain ⟨hplace, hconf, hmisses, hexpected, hlateral, hsince, hhistory⟩ :=
      correctionTaken_place hm hp code.toNat lateral.toInt
    have htracker : (correctionTaken r code.toNat lateral.toInt m s).tracker = _ := settle_handOn_tracker _ _ _
    refine ⟨correctionTaken r code.toNat lateral.toInt m s, rfl, hplace, hconf, hmisses, hexpected, hlateral, hsince,
      hhistory, fun hbehind hforward => correctionTaken_latched hm hp _ _ hs
        (correctionResult_jump (r := r) hp hm _ _ _ _ hbehind hforward),
      ⟨htracker, correctionResult_code (r := r) hp hm _ _ _ _, fun hb => ?_, fun hb => ?_, fun ha hberth => ?_,
        fun id hid => correctionTaken_latched hm hp _ _ hs hid, correctionTaken_claims hm hp _ _,
        fun ha => settle_handOn_arrival ha s, rfl⟩, settle_handOn_aside _ _ _⟩
    · obtain ⟨hspan, hground, hretrace, harmed⟩ := correctionResult_behind (r := r) hp hm s.settings.berthTolerance s.speed
        code.toNat lateral.toInt hb
      rw [htracker]
      exact ⟨hspan, hground, hretrace, fun hpos hout =>
        harmed hpos (Bool.eq_false_iff.mpr fun h => hout (inStationAt_iff.mp h))⟩
    · rw [htracker]
      exact correctionResult_ahead (r := r) hp hm _ _ _ _ hb
    · rw [htracker] at hberth
      obtain ⟨hwas, hband⟩ := correctionResult_atBerth (r := r) hp hm _ _ _ _ ha hberth
      exact ⟨hwas, inBand_iff.mp hband⟩

end Sys2Proof.Position
end

section
/-! What every step keeps of the part's tables. `tablesPart` is what `TablesOk` reads of the state: most operations leave it
as it was or are aside; an operation that writes a table has one lemma that says it keeps its size, and one that writes the
condition records keeps the fixed conditions (`FixedKept`). -/
namespace Sys2Proof.Tables
open Sys2Proof.Machine Sys2Proof.Safety Sys2Proof.RideLink Sys2Proof.PeerTable Sys2Proof.Position

/-! ## What `TablesOk` reads -/

/-- The tables that `TablesOk` is about. -/
def tablesPart (s : State) : List Nat × (List Line × List Seat) × (List Condition × List Counter)
    × List WaitingCue × (List (Option Clip) × List Voice) :=
  (s.tracker.history, (s.restraint.lines, s.restraint.seats), (s.cond.records, s.cond.counters), s.cues.waiting,
    (s.sound.clips, s.sound.voices))

theorem tablesOk_of_part {s t : State} (h : TablesOk s) (e : tablesPart t = tablesPart s) : TablesOk t := by
  simp only [tablesPart, Prod.mk.injEq] at e
  obtain ⟨hh, ⟨hl, hse⟩, ⟨hr, hc⟩, hw, hcl, hv⟩ := e
  exact
    { history := hh ▸ h.history
      lines := hl ▸ h.lines
      seats := hse ▸ h.seats
      records := hr ▸ h.records
      counters := hc ▸ h.counters
      waiting := hw ▸ h.waiting
      clips := hcl ▸ h.clips
      voices := hv ▸ h.voices
      fixed := fun id hid => by
        rw [ConditionUnit.record, hr]
        exact h.fixed id hid }

/-- R122: the fixed conditions keep their level and response. -/
def FixedKept (u v : ConditionUnit) : Prop :=
  ∀ (i : Nat) (c : Condition), fixedCondition (i + 1) = true → u.records[i]? = some c →
    ∃ d, v.records[i]? = some d ∧ d.level = c.level ∧ d.announceFirst = c.announceFirst

/-- The Condition Unit is replaced by one of the same size that keeps the fixed conditions. -/
theorem tablesOk_cond {s : State} (h : TablesOk s) {u : ConditionUnit} (hr : u.records.length = s.cond.records.length)
    (hc : u.counters.length = s.cond.counters.length) (hf : FixedKept s.cond u) : TablesOk { s with cond := u } :=
  { h with
    records := hr.trans h.records
    counters := hc.trans h.counters
    fixed := fun id hid => by
      obtain ⟨c, hrec, hlevel, hannounce⟩ := h.fixed id hid
      cases id with
      | zero => exact nomatch hrec
      | succ i =>
        obtain ⟨d, hd, hl, ha⟩ := hf i c hid hrec
        exact ⟨d, hd, hl.trans hlevel, ha.trans hannounce⟩ }

theorem fixedKept_grows {u v : ConditionUnit} (h : CondGrows u v) : FixedKept u v := fun i c _ hc => by
  obtain ⟨d, hd, hgrows⟩ := h.records i c hc
  exact ⟨d, hd, hgrows.level, hgrows.announceFirst⟩

/-- Every record is changed on its own, a fixed condition's not in its level and response. -/
theorem fixedKept_zipIdx {u v : ConditionUnit} {f : Condition × Nat → Condition}
    (e : v.records = u.records.zipIdx.map f) (hf : ∀ c i, fixedCondition (i + 1) = true →
      (f (c, i)).level = c.level ∧ (f (c, i)).announceFirst = c.announceFirst) : FixedKept u v := fun i c hid hc =>
  ⟨f (c, i), by simp [e, List.getElem?_zipIdx, hc], hf c i hid⟩

theorem tablesOk_aside {s t : State} (h : TablesOk s) (a : Aside s t) : TablesOk t := by
  have hcond := tablesOk_cond h a.grows.length a.sizes.counters (fixedKept_grows a.grows)
  exact
    { hcond with
      history := by rw [a.outside.tracker]; exact h.history
      lines := by rw [a.outside.lines]; exact h.lines
      seats := by
        rcases a.outside.seats with e | e
        · rw [e]; exact h.seats
        · rw [e, List.length_map]; exact h.seats
      waiting := a.sizes.waiting h.waiting
      clips := by rw [a.outside.clips]; exact h.clips
      voices := a.sizes.voices.trans h.voices }

theorem tablesOk_calm {s t : State} (h : TablesOk s) (c : Calm s t) : TablesOk t := tablesOk_aside h c.toAside

theorem tablesOk_calmClaims {s t : State} (h : TablesOk s) (c : CalmClaims s t) : TablesOk t :=
  tablesOk_calm (s := { s with claims := t.claims }) (tablesOk_of_part h rfl) c

theorem tablesOk_settle {s : State} (h : TablesOk s) : TablesOk (settle s) := tablesOk_aside h (settle_aside s)

theorem tablesOk_if {c : Prop} [Decidable c] {s t : State} (hs : TablesOk s) (ht : TablesOk t) :
    TablesOk (if c then s else t) := by
  split
  · exact hs
  · exact ht

/-- A command that does nothing unless a test holds, and else settles what it has done. -/
theorem tablesOk_settle_if {c : Prop} [Decidable c] {s u : State} (h : TablesOk s) (hu : TablesOk u) :
    TablesOk (if c then settle u else s) := tablesOk_if (tablesOk_settle hu) h

theorem tablesOk_foldl {α : Type} {f : State → α → State} (hf : ∀ a x, TablesOk a → TablesOk (f a x)) (xs : List α)
    {s : State} (h : TablesOk s) : TablesOk (xs.foldl f s) := by
  induction xs generalizing s with
  | nil => exact h
  | cons x xs ih => exact ih (hf s x h)

/-- An operation of the command's block is applied where an option asks for it. -/
theorem tablesOk_option {f : State → State} (hf : ∀ u, TablesOk u → TablesOk (f u)) (b : Bool) {s : State}
    (h : TablesOk s) : TablesOk (if b then f s else s) := tablesOk_if (hf s h) h

/-! ## The tables one by one -/

/-- R38: the history keeps its ten advances. -/
theorem tablesOk_tracker {s : State} (h : TablesOk s) {k : Tracker} (hk : k.history.length = 10) :
    TablesOk { s with tracker := k } := { h with history := hk }

/-- R99, R104: lines and seats are changed one by one. -/
theorem tablesOk_restraint {s : State} (h : TablesOk s) {m : Restraint}
    (hl : m.lines.length = s.restraint.lines.length) (hs : m.seats.length = s.restraint.seats.length) :
    TablesOk { s with restraint := m } := { h with lines := hl.trans h.lines, seats := hs.trans h.seats }

theorem tablesOk_setSeat {s : State} (h : TablesOk s) (i : Nat) (q : Seat) : TablesOk (setSeat i q s) :=
  tablesOk_restraint h rfl List.length_set

/-- R161, R162: clips and voices are changed one by one. -/
theorem tablesOk_sound {s : State} (h : TablesOk s) {e : SoundEngine} (hc : e.clips.length = s.sound.clips.length)
    (hv : e.voices.length = s.sound.voices.length) : TablesOk { s with sound := e } :=
  { h with clips := hc.trans h.clips, voices := hv.trans h.voices }

/-- R147: entries leave the pending list. -/
theorem tablesOk_unlist {s : State} (h : TablesOk s) (w : WaitingCue) : TablesOk (unlist w s) :=
  { h with waiting := List.length_erase_le.trans h.waiting }

/-- R130: CLEAR changes neither level nor response of a record. -/
theorem tablesOk_onClear {s : State} (h : TablesOk s) (id : Nat) : TablesOk (onRecord id Condition.clear s) := by
  refine tablesOk_cond h ?_ rfl fun i c _ hc => ?_
  · dsimp only
    split
    · rfl
    · exact List.length_modify _ _ _
  · dsimp only
    split
    · exact ⟨c, hc, rfl, rfl⟩
    · rw [updateAt, List.getElem?_modify, hc]
      split
      · exact ⟨c.clear, rfl, rfl, rfl⟩
      · exact ⟨c, rfl, rfl, rfl⟩

/-! ## The Link Controller -/

theorem tablesPart_requestChannel (s : State) : tablesPart (requestChannel s) = tablesPart s := by
  obtain ⟨a, n, d, e⟩ := requestChannel_frame s
  rw [e]
  rfl

theorem tablesOk_beaconBecomesDue {s : State} (h : TablesOk s) : TablesOk (beaconBecomesDue s) :=
  tablesOk_if h (tablesOk_of_part h ((tablesPart_requestChannel _).trans rfl))

theorem tablesOk_beaconAtOnce {s : State} (h : TablesOk s) : TablesOk (beaconAtOnce s) :=
  tablesOk_beaconBecomesDue (s := loadBeaconTimer s) (tablesOk_of_part h rfl)

theorem tablesOk_chooseFrame {s : State} (h : TablesOk s) : TablesOk (chooseFrame s) := by
  unfold chooseFrame
  split
  · exact tablesOk_calmClaims (s := beaconStarted s) (tablesOk_of_part h rfl) (evaluateClaims_calm _)
  · split
    · exact tablesOk_of_part h rfl
    · rename_i f rest _
      unfold sendQueued
      cases f with
      | cue stamp id dest body =>
        exact tablesOk_calm
          (s := startSending (queuedBytes s.link.ownAddress (.cue stamp id dest body)) (setQueue rest s))
          (tablesOk_of_part h rfl) (cueDone_calm id _)
      | report dest body => exact tablesOk_of_part h rfl

theorem tablesOk_offerCue {s : State} (h : TablesOk s) (id dest : Nat) (body : List Byte) :
    TablesOk (offerCue id dest body s) := by
  unfold offerCue
  dsimp only
  split
  · exact tablesOk_of_part h ((tablesPart_requestChannel _).trans rfl)
  · split
    · exact tablesOk_of_part h rfl
    · exact tablesOk_calm h (dropCue_calm s)

theorem tablesOk_ownQuery {s : State} (h : TablesOk s) (source kind selector : Nat) :
    TablesOk (ownQuery source kind selector s) :=
  tablesOk_if (tablesOk_of_part h rfl)
    (tablesOk_if (tablesOk_of_part h ((tablesPart_requestChannel _).trans rfl)) (tablesOk_of_part h rfl))

/-! ## The position (R38) -/

theorem finishChange_history (r : Route) (tolerance speed : Nat) (overshot : Bool) (rs : List Report) (ch : PosChange)
    (t : Tracker) : (finishChange r tolerance speed overshot rs ch t).tracker.history = t.history := by
  obtain ⟨_, _, _, _, hf⟩ := finishChange_frame r tolerance speed overshot rs ch t
  rw [hf]

/-- R38: a fix leaves the history as it was, wherever it stands. -/
theorem fixResult_history (r : Route) (tolerance speed code : Nat) (lateral : Int) (m : Nat) (t : Tracker) :
    (fixResult r tolerance speed code lateral m t).tracker.history = t.history := by
  unfold fixResult
  dsimp only
  split
  · exact finishChange_history _ _ _ _ _ _ _
  · split
    · exact finishChange_history _ _ _ _ _ _ _
    · exact finishChange_history _ _ _ _ _ _ _

theorem correctionResult_history (r : Route) (tolerance speed code : Nat) (lateral : Int) (m : Nat) (t : Tracker) :
    (correctionResult r tolerance speed code lateral m t).tracker.history = t.history := by
  unfold correctionResult
  dsimp only
  split
  · exact finishChange_history _ _ _ _ _ _ _
  · exact finishChange_history _ _ _ _ _ _ _

theorem tablesOk_handOn {s : State} (h : TablesOk s) (r : Route) {res : TrackerResult}
    (hk : res.tracker.history = s.tracker.history) : TablesOk (handOn r res s) :=
  tablesOk_calmClaims (tablesOk_tracker h (hk ▸ h.history)) (handOn_calm r res s)

theorem tablesOk_markerReport {s : State} (h : TablesOk s) (code : Nat) (lateral : Int) :
    TablesOk (markerReport code lateral s) := by
  have hunknown : TablesOk (tally .markerUnknown 1 s) := tablesOk_calm h (tally_calm _ _ s)
  unfold markerReport
  split
  · exact h
  · split
    · exact hunknown
    · exact tablesOk_if (tablesOk_handOn h _ (fixResult_history _ _ _ _ _ _ _))
        (tablesOk_if (tablesOk_handOn h _ (correctionResult_history _ _ _ _ _ _ _)) hunknown)

/-- R38: an interval outside the load takes out the oldest advance and puts in its own. -/
theorem tablesOk_odometryTaken {s : State} (h : TablesOk s) (left right : Half) :
    TablesOk (odometryTaken left right s) := by
  obtain ⟨-, -, hhistory, -⟩ := odometryTaken_counts left right s
  have hk : (odometryTaken left right s).tracker.history.length = 10 := by
    rw [hhistory, List.length_append, List.length_tail, h.history]
    rfl
  exact tablesOk_aside
    (s := { s with tracker := (odometryTaken left right s).tracker, claims := (odometryTaken left right s).claims })
    (tablesOk_of_part (tablesOk_tracker h hk) rfl) (odometryTaken_aside left right s)

theorem tablesOk_odometryAdvance {s : State} (h : TablesOk s) (left right : Half) :
    Answers TablesOk (exec (.odometryAdvance left right) s) := by
  cases hl : s.loading with
  | false =>
    rw [exec_odometryAdvance hl]
    exact answers_next (tablesOk_odometryTaken h left right)
  | true =>
    refine answers_next (tablesOk_settle ?_)
    rw [odometry, if_pos hl]
    exact tablesOk_of_part h rfl

/-! ## Motion, conditions and restraint -/

theorem tablesOk_enter {s : State} (h : TablesOk s) (m : MotionState) : TablesOk (enter m s) := tablesOk_of_part h rfl

theorem tablesOk_stopOrHold (d : Nat) {s : State} (h : TablesOk s) : TablesOk (stopOrHold d s) := by
  cases hm : s.motion.state with
  | running | stopping | estop =>
    simp only [stopOrHold, hm]
    exact tablesOk_if (tablesOk_enter h _) h
  | start | fault | parked | ready | holding | stopped => simpa only [stopOrHold, hm] using h

theorem tablesOk_controlInterval {s : State} (h : TablesOk s) : TablesOk (controlInterval s) := by
  have hrelease : ∀ p, TablesOk (releaseHold p s) := fun p => tablesOk_if (tablesOk_of_part h rfl) h
  have hform : TablesOk (formDemand s).2 := by
    unfold formDemand
    dsimp only
    exact tablesOk_stopOrHold _ (tablesOk_if (tablesOk_calm (hrelease _) (latch_calm 8 _)) (hrelease _))
  have hsteer : TablesOk (if (curvatureDemand s).2 then tally .steerLimit 1 (atOnce (formDemand s).2)
      else (formDemand s).2) :=
    tablesOk_if (tablesOk_calm hform ((atOnce_calm _).trans (tally_calm _ _ _))) hform
  exact tablesOk_of_part hsteer rfl

/-- R129: the steps of a CLEAR keep every table's size. -/
theorem tablesOk_ownClear {s : State} (h : TablesOk s) (conditions : BitVec 32) (options : Byte) :
    TablesOk (ownClear conditions options s) := by
  have htallies : ∀ u, TablesOk u → TablesOk (resetTallies u) := fun u hu =>
    tablesOk_cond hu rfl (List.length_map _) fun _ c _ hc => ⟨c, hc, rfl, rfl⟩
  have hdiagnostics : ∀ u, TablesOk u → TablesOk (clearDiagnostics u) := fun u hu =>
    tablesOk_restraint hu (List.length_map _) rfl
  have hseats : ∀ u, TablesOk u → TablesOk (freeSeats u) := fun u hu => tablesOk_restraint hu rfl (List.length_map _)
  have hfirst : ∀ u, TablesOk u → TablesOk (releaseFirstFault u) := fun u hu => tablesOk_of_part hu rfl
  have hsteps : TablesOk (clearSteps conditions options s) :=
    tablesOk_foldl (fun a id ha => tablesOk_onClear ha id) _
      (tablesOk_option hseats _ (tablesOk_option hdiagnostics _ (tablesOk_option htallies _ (tablesOk_option hfirst _ h))))
  have hrelatch : ∀ a id, TablesOk a → TablesOk (relatch a id) := fun a id ha =>
    tablesOk_if (tablesOk_calm ha (latchHeld_calm id a)) ha
  exact tablesOk_calm (tablesOk_foldl hrelatch _ hsteps) (handLevel_calm _)

theorem tablesOk_ownUnlock {s : State} (h : TablesOk s) (source : Nat) (seats : Byte) :
    TablesOk (ownUnlock source seats s) := by
  unfold ownUnlock
  split
  · exact tablesOk_of_part h rfl
  · refine tablesOk_foldl (fun u i hu => ?_) _ h
    unfold unlockSeat
    split
    · exact hu
    · exact tablesOk_if (tablesOk_of_part (tablesOk_setSeat hu _ _) rfl) hu

theorem tablesOk_ownStopZone {s : State} (h : TablesOk s) (zone : Nat) : TablesOk (ownStopZone zone s) :=
  tablesOk_if (tablesOk_calm h (latch_calm 12 s)) h

theorem tablesOk_ownStop {s : State} (h : TablesOk s) (scope zone : Nat) : TablesOk (ownStop scope zone s) := by
  unfold ownStop
  split
  · exact tablesOk_calm h (latch_calm 11 s)
  · exact tablesOk_ownStopZone h zone
  · exact h

theorem tablesOk_ownDispatch {s : State} (h : TablesOk s) (source : Nat) : TablesOk (ownDispatch source s) :=
  tablesOk_if (tablesOk_of_part h rfl) (tablesOk_of_part h rfl)

theorem tablesOk_ownResume {s : State} (h : TablesOk s) (source : Nat) : TablesOk (ownResume source s) := by
  unfold ownResume
  split
  · exact tablesOk_of_part h rfl
  · exact tablesOk_calm (s := startRunning s) (tablesOk_of_part h rfl) ((atOnce_calm _).trans (resumeAnnouncement_calm _))

theorem tablesOk_ownRetireImmediate {s : State} (h : TablesOk s) : TablesOk (ownRetireImmediate s) := by
  unfold ownRetireImmediate
  split
  · exact h
  · split <;> exact tablesOk_of_part h rfl

theorem tablesOk_ownRetire {s : State} (h : TablesOk s) (form : Nat) : TablesOk (ownRetire form s) := by
  unfold ownRetire
  split
  · exact tablesOk_ownRetireImmediate h
  · exact tablesOk_of_part h rfl
  · exact tablesOk_of_part h rfl
  · exact h

theorem tablesOk_windowEnd {s : State} (h : TablesOk s) (positions : List Byte) : TablesOk (windowEnd positions s) :=
  tablesOk_calm (s := judgeSeats positions s)
    (tablesOk_restraint h (by simp [linesAfter]) (by simp [seatsAfter])) (windowEnd_calm positions s)

/-! ## The Peer Table -/

theorem tablesOk_setPeer {s : State} (h : TablesOk s) (a : Nat) (p : Option Peer) : TablesOk (setPeer a p s) :=
  tablesOk_of_part h rfl

theorem tablesOk_becomeStale {s : State} (h : TablesOk s) (a : Nat) (p : Peer) : TablesOk (becomeStale a p s) :=
  tablesOk_calm (tablesOk_setPeer h a _) (becomeStale_calm a p s)

theorem tablesOk_becomeLost {s : State} (h : TablesOk s) (a : Nat) (p : Peer) : TablesOk (becomeLost a p s) :=
  tablesOk_calm (tablesOk_setPeer h a _) (becomeLost_calm a p s)

theorem tablesOk_forgetPeer {s : State} (h : TablesOk s) (address : Nat) : TablesOk (forgetPeer address s) := by
  by_cases hn : address = s.link.ownAddress ∨ s.peer address = none
  · rw [forgetPeer_nothing hn]
    exact h
  · obtain ⟨ho, hne⟩ := not_or.mp hn
    obtain ⟨p, hp⟩ := Option.ne_none_iff_exists'.mp hne
    exact tablesOk_calm (tablesOk_setPeer h address none) (forgetPeer_calm ho hp)

theorem tablesOk_takeBeacon {s : State} (h : TablesOk s) (source : Nat) (kind : StationKind) (body : List Byte) :
    TablesOk (takeBeacon source kind body s) := by
  have ht := tablesOk_calm (tablesOk_setPeer h source _) (beaconWritten_calm source kind body s)
  exact tablesOk_if h (tablesOk_calmClaims ht (handBeacon_calm _ _ _ _ _))

/-! ## Reception and the command rows (R10 to R13) -/

/-- R186: the tables at a show restart. -/
theorem tablesOk_showRestart {s : State} (h : TablesOk s) : TablesOk (showRestart s) := by
  have hcond : TablesOk { s with cond := s.cond.restart } :=
    tablesOk_cond h (List.length_map _) rfl fun i c _ hc =>
      ⟨{ c with announcement := .none }, by simp [ConditionUnit.restart, hc], rfl, rfl⟩
  exact
    { hcond with
      history := rfl
      lines := (List.length_map _).trans h.lines
      seats := rfl
      waiting := Nat.zero_le _
      clips := List.length_replicate
      voices := rfl }

theorem tablesOk_ownRestart {s : State} (h : TablesOk s) (source : Nat) : TablesOk (ownRestart source s) := by
  unfold ownRestart
  split
  · exact tablesOk_of_part h rfl
  · exact tablesOk_showRestart h

theorem tablesOk_command {owner : State → State} (ho : ∀ s, TablesOk s → TablesOk (owner s)) (kind : CommandKind)
    (source target : Nat) {s : State} (h : TablesOk s) : TablesOk (command kind source target owner s) := by
  unfold command
  split
  · exact h
  · split
    · exact tablesOk_of_part h rfl
    · exact ho s h

/-- What a command row's owner does keeps the tables. -/
theorem tablesOk_commandOwner {s : State} (h : TablesOk s) (c : Instr) : TablesOk (commandOwner c s) := by
  unfold commandOwner
  split
  · exact tablesOk_calm h (latch_calm 11 s)
  · exact tablesOk_ownStopZone h _
  · exact tablesOk_ownResume h _
  · exact tablesOk_ownDispatch h _
  · exact tablesOk_ownUnlock h _ _
  · exact tablesOk_ownClear h _ _
  · exact tablesOk_ownRetireImmediate h
  · exact tablesOk_of_part h rfl
  · exact tablesOk_of_part h rfl
  · exact tablesOk_forgetPeer h _
  · exact tablesOk_ownQuery h _ _ _
  · exact tablesOk_ownRestart h _
  · exact h

/-- Every command row keeps the tables. -/
theorem tablesOk_commandHeader {c : Instr} {kind : CommandKind} {source target : Nat} {s : State} (h : TablesOk s)
    (hc : commandHeader c = some (kind, source, target)) : Answers TablesOk (exec c s) := by
  rw [exec_commandHeader hc]
  have ht : TablesOk (carrierOff s) := tablesOk_of_part h rfl
  exact answers_next (tablesOk_settle (tablesOk_if ht (tablesOk_if (tablesOk_calm ht (badFrame_calm _))
    (tablesOk_command (fun _ hu => tablesOk_commandOwner hu c) kind source target
      (s := validFrame (carrierOff s)) (tablesOk_of_part ht rfl)))))

theorem tablesOk_beaconFrameTaken {s : State} (h : TablesOk s) (f : Frame) : TablesOk (beaconFrameTaken f s) := by
  unfold beaconFrameTaken
  split
  · exact tablesOk_calm (s := hearOwn s) (tablesOk_of_part h rfl) (latch_calm 2 _)
  · split
    · exact h
    · exact tablesOk_takeBeacon h _ _ _

theorem tablesOk_route {s : State} (h : TablesOk s) (f : Frame) : TablesOk (route f s) := by
  have hc : ∀ (kind : CommandKind) (owner : State → State), (∀ u, TablesOk u → TablesOk (owner u)) →
      TablesOk (command kind f.source f.target owner s) := fun kind owner ho => tablesOk_command ho kind _ _ h
  unfold route
  split
  · exact tablesOk_beaconFrameTaken h f
  · exact hc _ _ fun _ hu => tablesOk_ownStop hu _ _
  · exact hc _ _ fun _ hu => tablesOk_ownResume hu _
  · exact hc _ _ fun _ hu => tablesOk_ownDispatch hu _
  · exact hc _ _ fun _ hu => tablesOk_ownUnlock hu _ _
  · exact hc _ _ fun _ hu => tablesOk_ownClear hu _ _
  · exact hc _ _ fun _ hu => tablesOk_ownRetire hu _
  · exact hc _ _ fun _ hu => tablesOk_forgetPeer hu _
  · exact hc _ _ fun _ hu => tablesOk_ownQuery hu _ _ _
  · exact hc _ _ fun _ hu => tablesOk_ownRestart hu _
  · exact h

theorem tablesOk_receive {s : State} (h : TablesOk s) (frame : List Byte) : TablesOk (receive frame s) := by
  have ht : TablesOk (carrierOff s) := tablesOk_of_part h rfl
  unfold receive
  dsimp only
  split
  · exact ht
  · split
    · exact tablesOk_calm ht (badFrame_calm _)
    · exact tablesOk_route (s := validFrame (carrierOff s)) (tablesOk_of_part ht rfl) _

/-! ## The image load and the resets (R161, R180 to R186) -/

/-- R180: the tables after a full reset. -/
theorem tablesOk_fullReset (s : State) : TablesOk (fullReset s) where
  history := rfl
  lines := rfl
  seats := rfl
  records := rfl
  counters := rfl
  waiting := Nat.zero_le _
  clips := List.length_replicate
  voices := rfl
  fixed := fun id hid => by
    have hm : id ∈ [2, 8, 9, 10, 11, 12] := by simpa [fixedCondition] using hid
    simp only [List.mem_cons, List.not_mem_nil, or_false] at hm
    rcases hm with rfl | rfl | rfl | rfl | rfl | rfl <;> exact ⟨_, rfl, rfl, rfl⟩

theorem tablesOk_inputsAtReset {s : State} (h : TablesOk s) : TablesOk (inputsAtReset s) :=
  tablesOk_option (fun u hu => tablesOk_calm hu (latch_calm 10 u)) _
    (tablesOk_option (fun u hu => tablesOk_calm hu (latch_calm 9 u)) _ h)

theorem tablesOk_loadEnds {s : State} (h : TablesOk s) : TablesOk (loadEnds s) :=
  tablesOk_of_part (tablesOk_restraint h (m := (restraintLoaded s).restraint) rfl (by simp [restraintLoaded])) rfl

theorem tablesOk_enterFault {s : State} (h : TablesOk s) : TablesOk (enterFault s) := by
  have hf : TablesOk (loadFails s) := tablesOk_of_part h rfl
  exact tablesOk_if hf (tablesOk_beaconAtOnce hf)

/-- R122, R135: the values of a block leave the fixed conditions as they are. -/
theorem tablesOk_takeValues {s : State} (h : TablesOk s) (st : Staged) (clips : List (Option Clip)) :
    TablesOk (takeValues st clips s) := by
  refine tablesOk_of_part (tablesOk_cond h (u := (takeValues st clips s).cond) ?_ ?_ (fixedKept_zipIdx rfl ?_)) rfl
  · exact (List.length_map _).trans List.length_zipIdx
  · simp [takeValues, configureCounters, armChained, applyTrips]
  · intro c i hid
    dsimp only
    rw [if_pos hid]
    exact ⟨rfl, rfl⟩

theorem tablesOk_configure {s : State} (h : TablesOk s) (st : Staged) (clips : List (Option Clip)) :
    TablesOk (configure st clips s) :=
  tablesOk_calm (tablesOk_takeValues h st clips)
    ((Calm.foldl _ (fun a k => latch_calm (19 + k) a) _ _).trans (handLevel_calm _))

theorem tablesOk_noImage {s : State} (h : TablesOk s) (st : Staged) : TablesOk (noImage st s) :=
  tablesOk_enterFault (tablesOk_loadEnds (tablesOk_configure (tablesOk_calm h (latchClamped_calm _ s)) _ _))

/-- R161: a taken image gives 128 clip records. -/
theorem takeImage_clips_length (image : List Byte) (flashSize own : Nat) :
    (takeImage image flashSize own).value.clips.length = 128 := by
  simp [takeImage, takeClips]

theorem tablesOk_beginListening {s : State} (h : TablesOk s) : TablesOk (beginListening s) :=
  tablesOk_of_part h rfl

theorem tablesOk_withImage {s : State} (h : TablesOk s) (st : Staged) (image : List Byte) :
    TablesOk (withImage st image s) := by
  have hrecords : ∀ b, TablesOk (takeRecords (takeImage image st.settings.flashSize st.address).value (latchClamped b s)) :=
    fun b => { tablesOk_calm h (latchClamped_calm b s) with clips := takeImage_clips_length image st.settings.flashSize st.address }
  exact tablesOk_beginListening (tablesOk_loadEnds (tablesOk_configure (hrecords _)
    { st with settings := (checkAnnouncements
      (takeImage image st.settings.flashSize st.address).value.clips st.settings).value } _))

theorem tablesOk_passedBlock {s : State} (h : TablesOk s) (block : List Byte) : TablesOk (passedBlock block s) := by
  have ht := tablesOk_calm h (latchClamped_calm (takeBlock block).clamped s)
  exact tablesOk_if (tablesOk_noImage ht _) (tablesOk_of_part ht rfl)

theorem tablesOk_configBlockRead {s : State} (h : TablesOk s) (block : List Byte) :
    Answers TablesOk (execConfigBlockRead block s) :=
  answers_next (tablesOk_settle_if h
    (tablesOk_if (tablesOk_passedBlock h block) (tablesOk_enterFault (tablesOk_loadEnds h))))

theorem tablesOk_imageLoadEnd {s : State} (h : TablesOk s) (image : List Byte) :
    Answers TablesOk (execImageLoadEnd image s) := by
  refine answers_next ?_
  split
  · exact h
  · exact tablesOk_settle_if h (tablesOk_if (tablesOk_withImage h _ image) (tablesOk_noImage h _))

/-- R185: START is left. -/
theorem tablesOk_leaveStart {s : State} (h : TablesOk s) : TablesOk (leaveStart s) := by
  have hlisten : TablesOk (atOnce (listenEnds s)) :=
    tablesOk_calm (s := listenEnds s) (tablesOk_of_part h rfl) (atOnce_calm _)
  have hunfixed : TablesOk (unfixedStart (atOnce (listenEnds s))) :=
    tablesOk_if (tablesOk_calm hlisten (latch_calm 25 _)) hlisten
  exact tablesOk_calm (tablesOk_aside hunfixed (applyLevel_aside _).1) (atOnce_calm _)

theorem tablesOk_listenExpiry {s : State} (h : TablesOk s) : Answers TablesOk (execListenExpiry s) := by
  refine answers_next ?_
  split
  · exact tablesOk_settle_if h (tablesOk_beaconAtOnce (tablesOk_leaveStart h))
  · exact h

/-! ## The remaining commands -/

theorem tablesOk_carrierOn {s : State} (h : TablesOk s) : Answers TablesOk (execCarrierOn s) := by
  refine answers_next (tablesOk_if h ?_)
  dsimp only
  split <;> exact tablesOk_of_part h rfl

theorem tablesOk_gapMet {s : State} (h : TablesOk s) : Answers TablesOk (execGapMet s) := by
  refine answers_next (tablesOk_if h ?_)
  dsimp only
  split <;> exact tablesOk_of_part h rfl

theorem tablesOk_countdownEnd {s : State} (h : TablesOk s) : Answers TablesOk (execCountdownEnd s) := by
  refine answers_next ?_
  split
  · exact tablesOk_settle (tablesOk_chooseFrame h)
  all_goals exact h

theorem tablesOk_transmissionEnd {s : State} (h : TablesOk s) : Answers TablesOk (execTransmissionEnd s) := by
  refine answers_next ?_
  split <;> exact tablesOk_of_part h rfl

theorem tablesOk_beaconTimerExpiry {s : State} (h : TablesOk s) : Answers TablesOk (execBeaconTimerExpiry s) := by
  refine answers_next ?_
  split
  · exact h
  · exact tablesOk_if (tablesOk_beaconAtOnce h) h

theorem tablesOk_cueLatenessExpiry {s : State} (h : TablesOk s) : Answers TablesOk (execCueLatenessExpiry s) := by
  refine answers_next ?_
  split
  · exact h
  · rename_i q _
    obtain ⟨a, ha⟩ := gapWithoutWork_frame (setQueue q s)
    have hgap : TablesOk (gapWithoutWork (setQueue q s)) := ha ▸ tablesOk_of_part h rfl
    exact tablesOk_settle (tablesOk_calm hgap ((tally_calm _ _ _).trans (latch_calm 17 _)))

theorem tablesOk_silenceTimerExpiry {s : State} (h : TablesOk s) : Answers TablesOk (execSilenceTimerExpiry s) := by
  refine answers_next ?_
  split
  · exact h
  · exact tablesOk_settle_if h (tablesOk_calm (s := fallSilent s) (tablesOk_of_part h rfl) (latch_calm 3 _))

theorem tablesOk_ownAddressTimeExpiry {s : State} (h : TablesOk s) : Answers TablesOk (execOwnAddressTimeExpiry s) := by
  refine answers_next ?_
  split
  · exact h
  · exact tablesOk_if (tablesOk_of_part h rfl) h

theorem tablesOk_peerStale {s : State} (h : TablesOk s) (address : Nat) : Answers TablesOk (execPeerStale address s) := by
  refine answers_next ?_
  split
  · exact h
  · rename_i p _
    have hstale := tablesOk_becomeStale h address p
    exact tablesOk_settle_if h (tablesOk_if (tablesOk_becomeLost hstale address p) hstale)

theorem tablesOk_peerLost {s : State} (h : TablesOk s) (address : Nat) : Answers TablesOk (execPeerLost address s) := by
  refine answers_next ?_
  split
  · exact h
  · exact tablesOk_settle_if h (tablesOk_becomeLost h address _)

/-- R76: a stop input that is asserted latches its condition, unless the reset input is held. -/
theorem tablesOk_stopInput {s t : State} (h : TablesOk s) (e : tablesPart t = tablesPart s) (asserted held : Bool)
    (id : Nat) : Answers TablesOk (.next (if asserted then s else if held then t else settle (latch id t))) := by
  have ht := tablesOk_of_part h e
  exact answers_next (tablesOk_if h (tablesOk_if ht (tablesOk_settle (tablesOk_calm ht (latch_calm id t)))))

theorem tablesOk_unlockPulseExpiry {s : State} (h : TablesOk s) (seat : Nat) :
    Answers TablesOk (execUnlockPulseExpiry seat s) := by
  refine answers_next ?_
  split
  · exact h
  · split
    · exact tablesOk_settle_if h (tablesOk_calm (tablesOk_setSeat h _ _) (latch_calm 16 _))
    · exact h

theorem tablesOk_durationThreshold {s : State} (h : TablesOk s) (key : DurationKey) (counter : Nat) :
    Answers TablesOk (execDurationThreshold key counter s) := by
  refine answers_next ?_
  split
  · exact h
  · exact tablesOk_settle_if h (tablesOk_calm h (offerThreshold_calm key counter s))

/-- R148: an entry that is due leaves the pending list before its action is executed. -/
theorem tablesOk_serveCue {s : State} (h : TablesOk s) (w : WaitingCue) : TablesOk (serveCue s w) := by
  have hu := tablesOk_unlist h w
  refine tablesOk_settle_if h ?_
  unfold executeCue
  split
  · exact hu
  · split
    · exact tablesOk_offerCue hu _ _ _
    · exact tablesOk_calm hu (soundStart_calm _ _ _ _ _ _)
    · exact tablesOk_calm hu (soundStop_calm _ _ _)
    · exact hu

theorem tablesOk_pendingAdvance {s : State} (h : TablesOk s) : Answers TablesOk (execPendingAdvance s) :=
  answers_next (tablesOk_if h (tablesOk_settle
    (tablesOk_foldl (fun _ w hu => tablesOk_serveCue hu w) _ (s := tick s) (tablesOk_of_part h rfl))))

theorem tablesOk_watchExpiry {s : State} (h : TablesOk s) (cue : Nat) : Answers TablesOk (execWatchExpiry cue s) := by
  refine answers_next ?_
  split
  · exact h
  · split
    · exact tablesOk_settle_if h (tablesOk_calm h (watchOccurs_calm cue s))
    · exact h

theorem tablesOk_outputFrame {s : State} (h : TablesOk s) : Answers TablesOk (execOutputFrame s) := by
  obtain ⟨hclips, hvoices, -⟩ := advance_engine s.sound
  exact answers_next (tablesOk_if h (tablesOk_settle
    (tablesOk_calm (tablesOk_sound h (congrArg List.length hclips) hvoices) (outputFrame_calm s))))

theorem tablesOk_fetchComplete {s : State} (h : TablesOk s) (done : Completion) :
    Answers TablesOk (execFetchComplete done s) := by
  refine answers_next ?_
  split
  · exact h
  · exact tablesOk_settle_if h (tablesOk_sound h rfl (List.length_modify _ _ _))

theorem tablesOk_fetchTimeout {s : State} (h : TablesOk s) : Answers TablesOk (execFetchTimeout s) := by
  refine answers_next ?_
  split
  · exact h
  · exact tablesOk_settle_if h (tablesOk_calm h (readFails_calm _ s))

theorem tablesOk_waitExpiry {s : State} (h : TablesOk s) (voice : Nat) : Answers TablesOk (execWaitExpiry voice s) := by
  refine answers_next ?_
  split
  · exact h
  · split
    · exact tablesOk_settle_if h (tablesOk_sound h rfl List.length_set)
    · exact h

theorem tablesOk_lineTestSample {s : State} (h : TablesOk s) (returns : BitVec 12) :
    Answers TablesOk (execLineTestSample returns s) :=
  answers_next (tablesOk_if (tablesOk_restraint h (m := (takeSample returns s).restraint) (by simp [takeSample]) rfl) h)

/-- Every command answers a next state and keeps the tables. -/
theorem tablesOk_exec (c : Instr) (s : State) (h : TablesOk s) : Answers TablesOk (exec c s) := by
  cases c with
  | fullReset => exact answers_next (tablesOk_fullReset s)
  | configBlockRead block => exact tablesOk_configBlockRead h block
  | imageLoadEnd image => exact tablesOk_imageLoadEnd h image
  | listenExpiry => exact tablesOk_listenExpiry h
  | carrierOn => exact tablesOk_carrierOn h
  | gapMet => exact tablesOk_gapMet h
  | countdownEnd => exact tablesOk_countdownEnd h
  | transmissionEnd => exact tablesOk_transmissionEnd h
  | beaconTimerExpiry => exact tablesOk_beaconTimerExpiry h
  | cueLatenessExpiry => exact tablesOk_cueLatenessExpiry h
  | silenceTimerExpiry => exact tablesOk_silenceTimerExpiry h
  | ownAddressTimeExpiry => exact tablesOk_ownAddressTimeExpiry h
  | receiveFrame frame => exact answers_next (tablesOk_settle (tablesOk_receive h frame))
  | stopRide source => exact tablesOk_commandHeader h rfl
  | stopZone source zone => exact tablesOk_commandHeader h rfl
  | resume source target => exact tablesOk_commandHeader h rfl
  | dispatch source target => exact tablesOk_commandHeader h rfl
  | unlock source target seats => exact tablesOk_commandHeader h rfl
  | clear source target conditions options => exact tablesOk_commandHeader h rfl
  | retireImmediate source target => exact tablesOk_commandHeader h rfl
  | retireAtStation source target => exact tablesOk_commandHeader h rfl
  | retireLift source target => exact tablesOk_commandHeader h rfl
  | forget source target address => exact tablesOk_commandHeader h rfl
  | query source target kind selector => exact tablesOk_commandHeader h rfl
  | restart source target => exact tablesOk_commandHeader h rfl
  | peerStale address => exact tablesOk_peerStale h address
  | peerLost address => exact tablesOk_peerLost h address
  | odometryAdvance left right => exact tablesOk_odometryAdvance h left right
  | markerReport code lateral complete =>
    exact answers_next (tablesOk_settle (tablesOk_if h (tablesOk_markerReport h _ _)))
  | permitCompute => exact answers_next (tablesOk_if h (tablesOk_settle (tablesOk_controlInterval h)))
  | driveFault =>
    exact tablesOk_stopInput (t := { s with driveFaultIn := true }) h rfl s.driveFaultIn s.resetHeld 9
  | localStop =>
    exact tablesOk_stopInput (t := { s with localStopIn := true }) h rfl s.localStopIn s.resetHeld 10
  | claimIntervalEvaluation =>
    exact answers_next (tablesOk_settle (tablesOk_if (tablesOk_calmClaims h (evaluateClaims_calm s)) h))
  | windowEnd positions => exact answers_next (tablesOk_settle_if h (tablesOk_windowEnd h positions))
  | unlockPulseExpiry seat => exact tablesOk_unlockPulseExpiry h seat
  | durationThreshold event counter => exact tablesOk_durationThreshold h event counter
  | pendingAdvance => exact tablesOk_pendingAdvance h
  | watchExpiry cue => exact tablesOk_watchExpiry h cue
  | outputFrame => exact tablesOk_outputFrame h
  | fetchComplete samples => exact tablesOk_fetchComplete h samples
  | fetchTimeout => exact tablesOk_fetchTimeout h
  | waitExpiry voice => exact tablesOk_waitExpiry h voice
  | fullResetEnd =>
    exact answers_next (tablesOk_settle_if h
      (tablesOk_inputsAtReset (s := { s with resetHeld := false }) (tablesOk_of_part h rfl)))
  | driveFaultInputReleased => exact answers_next (tablesOk_of_part h rfl)
  | localStopInputReleased => exact answers_next (tablesOk_of_part h rfl)
  | lineTestSample returns => exact tablesOk_lineTestSample h returns

/-- Settles O7: every command keeps the tables, and the queue of commands is no part of them. -/
theorem tablesKept : Obligations.TablesKept :=
  kept_of_exec (fun _ _ h => tablesOk_of_part h rfl) tablesOk_exec

end Sys2Proof.Tables
end

section
/-! What `Still` reads of the state: the entries that wait, the inputs of the standing judgements (R54 to R56), and what the
fetch arbiter could grant (R167). A change of anything else leaves nothing outstanding (`Still.of_eq`). -/
namespace Sys2Proof.Standing
open Sys2Proof.Machine Sys2Proof.Safety

/-! ## Standing judgements (R54 to R56) -/

/-- No standing judgement calls for a change: PARKED and READY are at the berth and apart by the READY requirements, STOPPED
is away from it. -/
def Judged (s : State) : Prop :=
  match s.motion.state with
  | .parked => s.tracker.atBerth = true ∧ s.readyMet = false
  | .ready => s.tracker.atBerth = true ∧ s.readyMet = true
  | .stopped => s.tracker.atBerth = false
  | .start | .fault | .running | .holding | .stopping | .estop => True

theorem enter_ne (st : MotionState) (s : State) : enter st s ≠ s := fun h => by
  have hn := congrArg (fun u : State => u.motion.notices.length) h
  simp at hn

theorem judgeStanding_eq_iff (s : State) : judgeStanding s = s ↔ Judged s := by
  cases hm : s.motion.state <;> simp only [judgeStanding, Judged, hm]
  case parked | ready | stopped => cases s.tracker.atBerth <;> cases s.readyMet <;> simp [enter_ne]

theorem Judged.of_eq {s t : State} (h : Judged s) (hm : t.motion.state = s.motion.state)
    (hb : t.tracker.atBerth = s.tracker.atBerth) (hr : t.readyMet = s.readyMet) : Judged t := by
  unfold Judged
  rw [hm, hb, hr]
  exact h

/-- In the motion states that no standing judgement is about, none calls for a change. -/
theorem judged_of_state {s : State} (hp : s.motion.state ≠ .parked) (hr : s.motion.state ≠ .ready)
    (hs : s.motion.state ≠ .stopped) : Judged s := by
  unfold Judged
  split <;> trivial

/-! ## The fetch arbiter (R167) -/

/-- The arbiter has nothing to grant: the loader or a read holds the port, or no voice wants a block. -/
def Granted (s : State) : Prop := s.loading = true ∨ s.sound.read.isSome = true ∨ s.sound.grant = none

theorem arbitrate_eq_iff (s : State) : arbitrate s = s ↔ Granted s := by
  unfold arbitrate Granted
  split
  · rename_i h
    rw [Bool.or_eq_true] at h
    exact iff_of_true rfl (or_assoc.mp (Or.inl h))
  · rename_i h
    simp only [Bool.or_eq_true, not_or, Bool.not_eq_true] at h
    split
    · rename_i hg
      simp [hg]
    · rename_i g hg
      simp only [h.1, h.2, hg, Bool.false_eq_true, reduceCtorEq, or_self, iff_false]
      intro he
      have hr := congrArg (fun u : State => u.sound.read.isSome) he
      simp [h.2] at hr

theorem Granted.of_eq {s t : State} (h : Granted s) (hl : t.loading = s.loading) (he : t.sound = s.sound) :
    Granted t := by
  unfold Granted
  rw [hl, he]
  exact h

/-! ## Nothing outstanding -/

theorem still_iff (s : State) : Still s ↔ s.motion.notices = [] ∧ Judged s ∧ Granted s := by
  rw [← judgeStanding_eq_iff, ← arbitrate_eq_iff]
  exact ⟨fun h => ⟨h.notices, h.judged, h.granted⟩, fun ⟨hn, hj, hg⟩ => ⟨hn, hj, hg⟩⟩

theorem still_judged {s : State} (h : Still s) : Judged s := (judgeStanding_eq_iff s).mp h.judged

theorem still_granted {s : State} (h : Still s) : Granted s := (arbitrate_eq_iff s).mp h.granted

/-- A change of nothing that `Still` reads leaves nothing outstanding. -/
theorem still_of_eq {s t : State} (h : Still s) (hn : t.motion.notices = s.motion.notices)
    (hm : t.motion.state = s.motion.state) (hb : t.tracker.atBerth = s.tracker.atBerth) (hr : t.readyMet = s.readyMet)
    (hl : t.loading = s.loading) (he : t.sound = s.sound) : Still t :=
  (still_iff t).mpr ⟨hn.trans h.notices, (still_judged h).of_eq hm hb hr, (still_granted h).of_eq hl he⟩

/-! ## Settling -/

theorem arbitrate_motion (s : State) : (arbitrate s).motion = s.motion := by
  obtain ⟨_, e⟩ := arbitrate_eq s
  rw [e]

/-- R78: after settling no entry waits, whatever waited before. -/
theorem settle_notices (s : State) : (settle s).motion.notices = [] := by
  suffices h : ∀ n u, (settleLoop n u).motion.notices = [] by
    rw [settle, arbitrate_motion]
    exact h 64 s
  intro n
  induction n with
  | zero => exact fun _ => rfl
  | succ n ih =>
    intro u
    rw [settleLoop]
    split
    · assumption
    · exact ih _

/-- Where no judgement and no entry is outstanding, settling leaves the motion state as it is. -/
theorem settle_motion {s : State} (hn : s.motion.notices = []) (hj : Judged s) : (settle s).motion = s.motion := by
  rw [settle_quiet hn ((judgeStanding_eq_iff s).mpr hj), arbitrate_motion]

end Sys2Proof.Standing
end

section
/-! What a command does before its step is settled, for the two invariants of the motion state together: `Tame` bounds the
entries that it leaves waiting, so that settling hands on all of them (R78; log 6), and keeps the motion state at a level at
which it may stand (R58, R59, R128). -/
namespace Sys2Proof.Standing
open Sys2Proof.Machine Sys2Proof.Safety Sys2Proof.RideLink Sys2Proof.PeerTable Sys2Proof.Position

/-! ## The relation -/

/-- At most `n` more entries wait, and the level stays handed on with the motion state standing at it. -/
structure Tame (n : Nat) (s t : State) : Prop where
  entries : t.motion.notices.length ≤ s.motion.notices.length + n
  level : LevelOk s → LevelOk t

/-- What `Tame` reads of a state. -/
def tamePart (s : State) : List MotionState × MotionState × List Condition × Nat :=
  (s.motion.notices, s.motion.state, s.cond.records, s.cond.handed)

theorem levelOk_of_part {s t : State} (h : LevelOk s) (e : tamePart t = tamePart s) : LevelOk t := by
  simp only [tamePart, Prod.mk.injEq] at e
  obtain ⟨-, hm, hr, hh⟩ := e
  have hl : t.level = s.level := by rw [State.level, hr]; rfl
  exact ⟨by rw [hh, hl]; exact h.handed, by rw [hl, hm]; exact h.stands⟩

theorem Tame.of_part {n : Nat} {s t : State} (e : tamePart t = tamePart s) : Tame n s t where
  entries := Nat.le_add_right_of_le (Nat.le_of_eq (congrArg (fun p => p.1.length) e))
  level := fun h => levelOk_of_part h e

theorem Tame.refl {n : Nat} (s : State) : Tame n s s := .of_part rfl

theorem Tame.trans {a b : Nat} {s t u : State} (h : Tame a s t) (g : Tame b t u) : Tame (a + b) s u where
  entries := by have h1 := h.entries; have h2 := g.entries; omega
  level := g.level ∘ h.level

theorem Tame.mono {a b : Nat} {s t : State} (h : Tame a s t) (hab : a ≤ b := by decide) : Tame b s t where
  entries := h.entries.trans (Nat.add_le_add_left hab _)
  level := h.level

theorem Tame.ite {n : Nat} {c : Prop} [Decidable c] {s t u : State} (ht : Tame n s t) (hu : Tame n s u) :
    Tame n s (if c then t else u) := by
  split
  · exact ht
  · exact hu

/-- A test is made, and nothing is done unless it holds. -/
theorem Tame.when {n : Nat} {c : Prop} [Decidable c] {s t : State} (ht : Tame n s t) :
    Tame n s (if c then t else s) := ht.ite (Tame.refl s)

/-- The first state may be changed where `Tame` does not read it. -/
theorem Tame.from {n : Nat} {r s t : State} (e : tamePart s = tamePart r) (h : Tame n s t) : Tame n r t :=
  ((Tame.of_part (n := 0) e).trans h).mono (Nat.le_of_eq (Nat.zero_add n))

/-- The second state may be changed where `Tame` does not read it. -/
theorem Tame.to {n : Nat} {s t u : State} (h : Tame n s t) (e : tamePart u = tamePart t) : Tame n s u :=
  h.trans (Tame.of_part (n := 0) e)

theorem tamePart_foldl {α : Type} {f : State → α → State} (hf : ∀ a x, tamePart (f a x) = tamePart a) (xs : List α)
    (s : State) : tamePart (xs.foldl f s) = tamePart s := by
  induction xs generalizing s with
  | nil => rfl
  | cons x xs ih => exact (ih _).trans (hf s x)

/-! ## The operations that blocks share -/

/-- A shared operation leaves at most six more entries waiting (Table 4.5, R54 to R56). -/
theorem calm_notices {s t : State} (h : Calm s t) : t.motion.notices.length ≤ s.motion.notices.length + 6 := by
  have hm := h.measure
  have hl := entriesLeft_le s
  omega

theorem Tame.calm {s t : State} (h : Calm s t) (hh : Handed s → Handed t) : Tame 6 s t where
  entries := calm_notices h
  level := fun hs => Calm.levelOk h (hh hs.handed) hs

theorem Tame.calmClaims {s t : State} (h : CalmClaims s t) (hh : Handed s → Handed t) : Tame 6 s t :=
  Tame.from (s := { s with claims := t.claims }) rfl (Tame.calm h hh)

theorem tame_latch (id : Nat) (s : State) : Tame 6 s (latch id s) := .calm (latch_calm id s) fun _ => latch_handed id s

theorem tame_tally (event : TallyEvent) (amount : Nat) (s : State) : Tame 6 s (tally event amount s) :=
  .calm (tally_calm event amount s) (tally_handed event amount s)

theorem tame_atOnce (s : State) : Tame 6 s (atOnce s) := .calm (atOnce_calm s) (atOnce_handed s)

theorem tame_latchClamped (b : Bool) (s : State) : Tame 6 s (latchClamped b s) :=
  .calm (latchClamped_calm b s) (latchClamped_handed b s)

theorem tame_cueDone (id : Nat) (s : State) : Tame 6 s (cueDone id s) :=
  .calm (cueDone_calm id s) (occurWhere_handed _ s)

/-- An entry waits for its handing on; the motion state entered may stand at the level. -/
theorem tame_enter {st : MotionState} {s : State} (h : LevelOk s → Stands s.level st) : Tame 1 s (enter st s) where
  entries := by simp
  level := fun hs => ⟨hs.handed, h hs⟩

/-! ## Link Controller -/

theorem tamePart_requestChannel (s : State) : tamePart (requestChannel s) = tamePart s := by
  obtain ⟨_, _, _, e⟩ := requestChannel_frame s
  rw [e]
  rfl

theorem tamePart_beaconBecomesDue (s : State) : tamePart (beaconBecomesDue s) = tamePart s := by
  unfold beaconBecomesDue
  split
  · rfl
  · exact (tamePart_requestChannel _).trans rfl

theorem tamePart_beaconAtOnce (s : State) : tamePart (beaconAtOnce s) = tamePart s :=
  (tamePart_beaconBecomesDue (loadBeaconTimer s)).trans rfl

theorem tame_evaluateClaims (s : State) : Tame 6 s (evaluateClaims s) :=
  .calmClaims (evaluateClaims_calm s) (evaluateClaims_handed s)

theorem tame_chooseFrame (s : State) : Tame 6 s (chooseFrame s) := by
  unfold chooseFrame
  split
  · exact Tame.from (s := beaconStarted s) rfl (tame_evaluateClaims _)
  · split
    · exact Tame.of_part rfl
    · rename_i f rest _
      cases f with
      | cue stamp id dest body =>
        exact Tame.from
          (s := startSending (queuedBytes s.link.ownAddress (.cue stamp id dest body)) (setQueue rest s))
          rfl (tame_cueDone id _)
      | report dest body => exact Tame.of_part rfl

theorem tame_offerCue (id dest : Nat) (body : List Byte) (s : State) : Tame 6 s (offerCue id dest body s) := by
  unfold offerCue
  dsimp only
  split
  · exact Tame.of_part ((tamePart_requestChannel _).trans rfl)
  · split
    · exact Tame.of_part rfl
    · exact .calm (dropCue_calm s) fun _ => latch_handed 17 _

theorem tamePart_ownQuery (source kind selector : Nat) (s : State) :
    tamePart (ownQuery source kind selector s) = tamePart s := by
  unfold ownQuery offerReport
  split
  · rfl
  · split
    · exact (tamePart_requestChannel _).trans rfl
    · rfl

/-! ## Position Tracker -/

theorem tame_handOn (r : Route) (res : TrackerResult) (s : State) : Tame 6 s (handOn r res s) :=
  Tame.from (s := { s with tracker := res.tracker }) rfl
    (.calmClaims (handOn_calm r res s) fun h => handOn_handed r res s (h.of_eq rfl rfl))

theorem tame_applyAdvance (a : Nat) (s : State) : Tame 12 s (applyAdvance a s) := by
  have hcount : Tame 6 s (speedWithdraw (countAdvance a s)) :=
    Tame.from (s := countAdvance a s) rfl (.calm (speedWithdraw_calm _) fun h => by
      unfold speedWithdraw
      split
      · exact h
      · exact h.of_eq rfl rfl)
  unfold applyAdvance
  dsimp only
  split
  · exact hcount.mono
  · exact hcount.trans (tame_handOn _ _ _)

theorem tame_odometry (left right : Half) (s : State) : Tame 18 s (odometry left right s) := by
  unfold odometry
  split
  · exact Tame.of_part rfl
  · refine Tame.trans ?_ (tame_applyAdvance _ _)
    exact Tame.from (s := readCounts left right s) rfl (.calm (reportAll_calm _ _) (reportAll_handed _ _))

theorem tame_markerReport (code : Nat) (lateral : Int) (s : State) : Tame 6 s (markerReport code lateral s) := by
  unfold markerReport
  split
  · exact Tame.refl s
  · split
    · exact tame_tally _ _ s
    · exact (tame_handOn _ _ s).ite ((tame_handOn _ _ s).ite (tame_tally _ _ s))

/-! ## Motion Controller -/

theorem tame_releaseHold (p : Permit) (s : State) : Tame 1 s (releaseHold p s) := by
  unfold releaseHold
  split
  · rename_i h
    refine tame_enter fun hs => ?_
    have hstands := hs.stands
    rwa [h.1] at hstands
  · exact Tame.refl s

/-- R57, R59: HOLDING stands where RUNNING does, and STOPPED where STOPPING does or where ESTOP is left. -/
theorem tame_stopOrHold (d : Nat) (s : State) : Tame 1 s (stopOrHold d s) := by
  cases hm : s.motion.state with
  | running | stopping =>
    simp only [stopOrHold, hm]
    refine Tame.when (tame_enter fun hs => ?_)
    have hstands := hs.stands
    rwa [hm] at hstands
  | estop =>
    simp only [stopOrHold, hm]
    split
    · rename_i h
      exact tame_enter fun _ => h.1
    · exact Tame.refl s
  | start | fault | parked | ready | holding | stopped =>
    simp only [stopOrHold, hm]
    exact Tame.refl s

theorem tame_formDemand (s : State) : Tame 8 s (formDemand s).2 := by
  unfold formDemand
  dsimp only
  exact ((tame_releaseHold _ s).trans (Tame.when (tame_latch 8 _))).trans (tame_stopOrHold _ _)

theorem tame_controlInterval (s : State) : Tame 20 s (controlInterval s) := by
  have hform := tame_formDemand s
  have hsteer : Tame 20 s (if (curvatureDemand s).2 then tally .steerLimit 1 (atOnce (formDemand s).2)
      else (formDemand s).2) :=
    ((hform.trans (tame_atOnce _)).trans (tame_tally _ _ _)).ite (hform.mono)
  exact hsteer.to rfl

theorem tame_ownDispatch (source : Nat) (s : State) : Tame 1 s (ownDispatch source s) := by
  unfold ownDispatch
  split
  · rename_i h
    refine Tame.from (s := { s with motion := { s.motion with dPrev := 0 } }) rfl (tame_enter fun hs => ?_)
    have hstands : Stands s.level s.motion.state := hs.stands
    rw [h] at hstands
    exact Nat.le_trans hstands (by decide)
  · exact Tame.of_part rfl

/-- R61: what the checks of a RESUME leave: STOPPED at a level of 5 or below, without the immediate retire flag. -/
theorem resumeRefusal_none {s : State} (h : resumeRefusal s = none) : s.motion.state = .stopped ∧ s.level ≤ 5 := by
  unfold resumeRefusal at h
  split at h
  · exact nomatch h
  · rename_i hm
    split at h
    · exact nomatch h
    · rename_i hl
      exact ⟨not_not.mp hm, Nat.le_of_not_lt hl⟩

theorem tame_ownResume (source : Nat) (s : State) : Tame 13 s (ownResume source s) := by
  unfold ownResume
  split
  · exact Tame.of_part rfl
  · rename_i h
    have hrun : Tame 1 s (startRunning s) :=
      Tame.from (s := { s with motion := { s.motion with dPrev := 0 } }) rfl
        (tame_enter fun _ => (resumeRefusal_none h).2)
    exact (hrun.trans (tame_atOnce _)).trans
      (.calm (resumeAnnouncement_calm _) (resumeAnnouncement_handed _))

/-- R62: STOPPING stands where READY, RUNNING and HOLDING do. -/
theorem tame_ownRetireImmediate (s : State) : Tame 1 s (ownRetireImmediate s) := by
  have hstop : s.motion.state = .ready ∨ s.motion.state = .running ∨ s.motion.state = .holding →
      Tame 1 s (enter .stopping (setImmediate s)) := fun hm => by
    refine Tame.from (s := setImmediate s) rfl (tame_enter fun hs => ?_)
    have hstands := hs.stands
    have hm' : (setImmediate s).motion.state = s.motion.state := rfl
    rw [hm'] at hstands
    rcases hm with hm | hm | hm <;> rw [hm] at hstands <;> exact Nat.le_trans hstands (by decide)
  unfold ownRetireImmediate
  split
  · exact Tame.refl s
  · split
    · exact hstop (.inl (by assumption))
    · exact hstop (.inr (.inl (by assumption)))
    · exact hstop (.inr (.inr (by assumption)))
    all_goals exact Tame.of_part rfl

theorem tame_ownRetire (form : Nat) (s : State) : Tame 1 s (ownRetire form s) := by
  unfold ownRetire
  split
  · exact tame_ownRetireImmediate s
  all_goals exact Tame.of_part rfl

/-! ## Condition Unit and Restraint Monitor -/

/-- R129: the steps of a CLEAR before the conditions are latched again leave the motion state, the entries that wait, and
the level last handed on. -/
theorem clearSteps_frame (conditions : BitVec 32) (options : Byte) (s : State) :
    (clearSteps conditions options s).motion = s.motion
      ∧ (clearSteps conditions options s).cond.handed = s.cond.handed := by
  have hfold : ∀ (ids : List Nat) (u : State), (ids.foldl (fun a id => onRecord id Condition.clear a) u).motion = u.motion
      ∧ (ids.foldl (fun a id => onRecord id Condition.clear a) u).cond.handed = u.cond.handed := by
    intro ids
    induction ids with
    | nil => exact fun _ => ⟨rfl, rfl⟩
    | cons id ids ih => exact fun u => ih (onRecord id Condition.clear u)
  unfold clearSteps
  dsimp only
  obtain ⟨hm, hh⟩ := hfold (namedIds conditions) _
  rw [hm, hh]
  cases options.getLsbD 0 <;> cases options.getLsbD 1 <;> cases options.getLsbD 2 <;> cases conditions.getLsbD 15 <;>
    exact ⟨rfl, rfl⟩

theorem relatch_calm (s : State) (id : Nat) : Calm s (relatch s id) := by
  unfold relatch
  split
  · exact latchHeld_calm id s
  · exact Calm.refl s

/-- R129 to R132: the level, held back within a CLEAR, is handed on at its end. -/
theorem tame_ownClear (conditions : BitVec 32) (options : Byte) (s : State) :
    Tame 6 s (ownClear conditions options s) := by
  obtain ⟨hm, hh⟩ := clearSteps_frame conditions options s
  have hcalm : Calm (clearSteps conditions options s) (ownClear conditions options s) :=
    (Calm.foldl _ relatch_calm _ _).trans (handLevel_calm _)
  have hhanded : Handed (ownClear conditions options s) := handLevel_handed _
  refine ⟨hm ▸ calm_notices hcalm, fun hs => ⟨hhanded, ?_⟩⟩
  have hstands := hcalm.stands (by rw [hm, hh, hs.handed]; exact hs.stands)
  rwa [show _ = State.level _ from hhanded] at hstands

theorem tamePart_ownUnlock (source : Nat) (seats : Byte) (s : State) : tamePart (ownUnlock source seats s) = tamePart s := by
  unfold ownUnlock
  split
  · rfl
  · refine tamePart_foldl (fun u i => ?_) _ s
    unfold unlockSeat
    split
    · rfl
    · split <;> rfl

theorem tame_ownStopZone (zone : Nat) (s : State) : Tame 6 s (ownStopZone zone s) := Tame.when (tame_latch 12 s)

theorem tame_ownStop (scope zone : Nat) (s : State) : Tame 6 s (ownStop scope zone s) := by
  unfold ownStop
  split
  · exact tame_latch 11 s
  · exact tame_ownStopZone zone s
  · exact Tame.refl s

theorem mismatchEvents_handed (a b : LineJudgement) : Hands (mismatchEvents a b) := fun s h => by
  have one : ∀ (j : LineJudgement) (u : State), Handed u → Handed (if j = .mismatch then tally .lineMismatch 1 u else u) := by
    intro j u hu
    split
    · exact tally_handed _ _ u hu
    · exact hu
  exact one b _ (one a s h)

theorem creepEvent_handed (seat : Nat) (before after : Bool) : Hands (creepEvent seat before after) := fun s h => by
  unfold creepEvent
  split
  · exact h
  · split <;> exact h.of_eq rfl rfl

theorem seatOccurrences_handed (moving : Bool) (before after : SeatState) : Hands (seatOccurrences moving before after) :=
  fun s h => by
    unfold seatOccurrences
    split
    · exact latch_handed 15 s
    · split
      · exact latch_handed 14 s
      · exact h

theorem seatReport_handed (moving : Bool) (positions : List Byte) (c : Settings) (before : Restraint) (i : Nat) (s : State)
    (h : Handed s) : Handed (seatReport moving positions c before s i) := by
  unfold seatReport
  split
  · split
    · exact h
    · exact seatOccurrences_handed _ _ _ _ (creepEvent_handed _ _ _ _ (mismatchEvents_handed _ _ s h))
  · exact h

theorem tame_windowEnd (positions : List Byte) (s : State) : Tame 6 s (windowEnd positions s) :=
  Tame.from (s := judgeSeats positions s) rfl (.calm (windowEnd_calm positions s) fun h =>
    Handed.foldl (seatReport_handed _ _ _ _) _ h)

/-! ## Peer Table -/

theorem tamePart_becomeStale (a : Nat) (p : Peer) (s : State) : tamePart (becomeStale a p s) = tamePart s := by
  unfold becomeStale
  dsimp only
  split <;> rfl

theorem tame_becomeLost (a : Nat) (p : Peer) (s : State) : Tame 6 s (becomeLost a p s) :=
  Tame.from (s := setPeer a (some { p with state := .lost }) s) rfl (Tame.when (tame_latch 4 _))

theorem tamePart_forgetPeer (a : Nat) (s : State) : tamePart (forgetPeer a s) = tamePart s := by
  unfold forgetPeer
  split
  · rfl
  · split
    · rfl
    · dsimp only
      split <;> rfl

theorem tame_takeBeacon (source : Nat) (kind : StationKind) (body : List Byte) (s : State) :
    Tame 12 s (takeBeacon source kind body s) := by
  have hwritten : Tame 6 s (beaconWritten source kind body s) :=
    Tame.from (s := setPeer source (some (beaconRecord source kind body s)) s) rfl
      (.calm (beaconWritten_calm source kind body s) fun h =>
        framesLostEvent_handed _ _ (sceneReplaced_handed _ _ _ _ h))
  have hhand : Tame 12 s (handBeacon source kind body (s.peer source) (beaconWritten source kind body s)) :=
    hwritten.trans (.calmClaims (handBeacon_calm _ _ _ _ _) (handBeacon_handed _ _ _ _ _))
  exact (Tame.refl s).ite hhand

/-! ## Reception (R10) -/

theorem restart_weight (c : Condition) : Condition.weight { c with announcement := .none } = c.weight := rfl

/-- R143: a show restart keeps the level. -/
theorem restart_level (u : ConditionUnit) : levelOf u.restart.records = levelOf u.records := by
  simp only [levelOf, ConditionUnit.restart, List.foldl_map, restart_weight]

/-- R186: a show restart enters START, and no entry of before it waits any longer than it did. -/
theorem tame_showRestart (s : State) : Tame 1 s (showRestart s) where
  entries := by simp [showRestart, Motion.restart]
  level := fun hs => ⟨(hs.handed.trans (restart_level s.cond).symm : _), trivial⟩

theorem tame_ownRestart (source : Nat) (s : State) : Tame 1 s (ownRestart source s) := by
  unfold ownRestart
  split
  · exact Tame.of_part rfl
  · exact tame_showRestart s

theorem tame_command {n : Nat} {owner : State → State} (ho : ∀ s, Tame n s (owner s)) (kind : CommandKind)
    (source target : Nat) (s : State) : Tame n s (command kind source target owner s) := by
  unfold command
  split
  · exact Tame.refl s
  · split
    · exact Tame.of_part rfl
    · exact ho s

theorem tame_commandOwner (c : Instr) (s : State) : Tame 13 s (commandOwner c s) := by
  unfold commandOwner
  split
  · exact (tame_latch 11 s).mono
  · exact (tame_ownStopZone _ s).mono
  · exact tame_ownResume _ s
  · exact (tame_ownDispatch _ s).mono
  · exact Tame.of_part (tamePart_ownUnlock _ _ s)
  · exact (tame_ownClear _ _ s).mono
  · exact (tame_ownRetireImmediate s).mono
  · exact Tame.of_part rfl
  · exact Tame.of_part rfl
  · exact Tame.of_part (tamePart_forgetPeer _ s)
  · exact Tame.of_part (tamePart_ownQuery _ _ _ s)
  · exact (tame_ownRestart _ s).mono
  · exact Tame.refl s

theorem tame_badFrame (s : State) : Tame 6 s (badFrame s) := tame_tally _ _ s

theorem tame_commandRow (c : Instr) (kind : CommandKind) (source target : Nat) (s : State) :
    Tame 13 s (commandRow kind source target (commandOwner c) s) := by
  have hlost : Tame 13 s (carrierOff s) := Tame.of_part rfl
  have hbad : Tame 13 s (badFrame (carrierOff s)) := Tame.from (s := carrierOff s) rfl (tame_badFrame _).mono
  exact hlost.ite (hbad.ite (Tame.from (s := received s) rfl (tame_command (tame_commandOwner c) kind source target _)))

theorem tame_beaconFrameTaken (f : Frame) (s : State) : Tame 12 s (beaconFrameTaken f s) := by
  unfold beaconFrameTaken
  split
  · exact Tame.from (s := hearOwn s) rfl (tame_latch 2 _).mono
  · split
    · exact Tame.refl s
    · exact tame_takeBeacon _ _ _ s

theorem tame_route (f : Frame) (s : State) : Tame 13 s (route f s) := by
  have hc : ∀ (kind : CommandKind) (owner : State → State), (∀ u, Tame 13 u (owner u)) →
      Tame 13 s (command kind f.source f.target owner s) := fun kind owner ho => tame_command ho kind _ _ s
  unfold route
  split
  · exact (tame_beaconFrameTaken f s).mono
  · exact hc _ _ fun u => (tame_ownStop _ _ u).mono
  · exact hc _ _ (tame_ownResume _)
  · exact hc _ _ fun u => (tame_ownDispatch _ u).mono
  · exact hc _ _ fun u => Tame.of_part (tamePart_ownUnlock _ _ u)
  · exact hc _ _ fun u => (tame_ownClear _ _ u).mono
  · exact hc _ _ fun u => (tame_ownRetire _ u).mono
  · exact hc _ _ fun u => Tame.of_part (tamePart_forgetPeer _ u)
  · exact hc _ _ fun u => Tame.of_part (tamePart_ownQuery _ _ _ u)
  · exact hc _ _ fun u => (tame_ownRestart _ u).mono
  · exact Tame.refl s

theorem tame_receive (frame : List Byte) (s : State) : Tame 13 s (receive frame s) := by
  unfold receive
  dsimp only
  split
  · exact Tame.of_part rfl
  · split
    · exact Tame.from (s := carrierOff s) rfl (tame_badFrame _).mono
    · exact Tame.from (s := validFrame (carrierOff s)) rfl (tame_route _ _)

/-! ## Cue Sequencer and Sound Engine -/

theorem tame_executeCue (id : Nat) (s : State) : Tame 6 s (executeCue id s) := by
  unfold executeCue
  split
  · exact Tame.refl s
  · split
    · exact tame_offerCue _ _ _ s
    · exact .calm (soundStart_calm _ _ _ _ _ s) (soundStart_handed _ _ _ _ _ s)
    · exact .calm (soundStop_calm _ _ s) (soundStop_handed _ _ s)
    · exact Tame.refl s

/-- R148: what a served cue causes is settled before the next, so that no entry of it waits. -/
theorem tame_serveCue (s : State) (w : WaitingCue) : Tame 0 s (serveCue s w) := by
  refine Tame.when ⟨by rw [settle_notices]; exact Nat.zero_le _, fun hs => ?_⟩
  exact settle_levelOk _ ((tame_executeCue w.cue (unlist w s)).level (levelOk_of_part hs rfl))

theorem tame_servePending (s : State) : Tame 0 s (servePending s) := by
  unfold servePending
  generalize s.cues.waiting.filter (fun w => w.due ≤ s.now) = ws
  induction ws generalizing s with
  | nil => exact Tame.refl s
  | cons w ws ih => exact (tame_serveCue s w).trans (ih _)

theorem tame_watchOccurs (id : Nat) (s : State) : Tame 6 s (watchOccurs id s) :=
  Tame.from (s := onCue id CueEntry.unwatch s) rfl (.calm (cueOccur_calm _ id) (cueOccur_handed id _))

theorem tame_outputFrame (s : State) : Tame 6 s (outputFrame s) :=
  Tame.from (s := { s with sound := s.sound.advance }) rfl
    (.calm (outputFrame_calm s) fun h => outputFrame_handed s (h.of_eq rfl rfl))

/-! ## The resets and the load (R180 to R186) -/

theorem tame_inputsAtReset (s : State) : Tame 12 s (inputsAtReset s) :=
  (Tame.when (tame_latch 9 s)).trans (Tame.when (tame_latch 10 _))

theorem tame_enterFault (s : State) : Tame 1 s (enterFault s) := by
  have hfails : Tame 1 s (loadFails s) := Tame.from
    (s := { s with loader := { progress := .failed, listenExpiry := none, staged := none } }) rfl
    (tame_enter fun _ => trivial)
  exact hfails.ite (hfails.to (tamePart_beaconAtOnce _))

/-- R183: the values of a block change the levels of conditions; the level is handed on at the end. -/
theorem tame_configure (st : Staged) (clips : List (Option Clip)) (s : State) : Tame 6 s (configure st clips s) := by
  have hcalm : Calm (takeValues st clips s) (configure st clips s) :=
    (Calm.foldl _ (fun a k => latch_calm (19 + k) a) _ _).trans (handLevel_calm _)
  have hhanded : Handed (configure st clips s) := handLevel_handed _
  refine ⟨(calm_notices hcalm : _ ≤ (takeValues st clips s).motion.notices.length + 6), fun hs => ⟨hhanded, ?_⟩⟩
  have hstands := hcalm.stands (show Stands s.cond.handed s.motion.state by rw [hs.handed]; exact hs.stands)
  rwa [show _ = State.level _ from hhanded] at hstands

theorem tame_noImage (st : Staged) (s : State) : Tame 13 s (noImage st s) := by
  have hvalues := (tame_latchClamped (blockValuesClamped st (List.replicate 128 none)) s).trans
    (tame_configure st (List.replicate 128 none) _)
  have hended : ∀ u, tamePart (loadEnds u) = tamePart u := fun _ => rfl
  exact (hvalues.to (hended _)).trans (tame_enterFault _)

theorem tame_withImage (st : Staged) (image : List Byte) (s : State) : Tame 12 s (withImage st image s) := by
  have hrecords : ∀ b (im : ImageRecords), Tame 6 s (takeRecords im (latchClamped b s)) := fun b _ =>
    (tame_latchClamped b s).to rfl
  have hlisten : ∀ u, tamePart (beginListening (loadEnds u)) = tamePart u := fun _ => rfl
  exact ((hrecords _ _).trans (tame_configure _ _ _)).to (hlisten _)

theorem tame_passedBlock (block : List Byte) (s : State) : Tame 19 s (passedBlock block s) := by
  have hclamped := tame_latchClamped (takeBlock block).clamped s
  exact (hclamped.trans (tame_noImage _ _)).ite (hclamped.mono.to rfl)

/-- R185, R58: PARKED or STOPPED is entered whatever the level; the level is applied before START has been left. -/
theorem tame_leaveStart (s : State) : Tame 0 s (leaveStart s) where
  entries := by rw [leaveStart, atOnce_notices]; exact Nat.zero_le _
  level := fun hs => by
    have hlisten : Handed (listenEnds s) := hs.handed
    have hunfixed : Handed (unfixedStart (atOnce (listenEnds s))) := by
      unfold unfixedStart
      split
      · exact latch_handed 25 _
      · exact atOnce_handed _ hlisten
    have happlied : LevelOk (applyLevel (unfixedStart (atOnce (listenEnds s)))) := by
      have hstands := applyLevel_stands (unfixedStart (atOnce (listenEnds s)))
      refine ⟨?_, ?_⟩ <;> simp only [State.level, applyLevel_cond]
      · exact hunfixed
      · exact hstands
    exact (tame_atOnce _).level happlied

end Sys2Proof.Standing
end

section
/-! How every command ends its step: it settles what a `Tame` operation has done, or it changes nothing that the standing
judgements and the arbiter read. Both invariants of the motion state follow. -/
namespace Sys2Proof.Standing
open Sys2Proof.Machine Sys2Proof.Safety Sys2Proof.RideLink

/-- The two ways in which a command ends its step (log 6). -/
inductive Ends (s : State) : Host.Outcome State Fault Refusal → Prop where
  | settled {n : Nat} {u : State} (h : Tame n s u) (hn : n ≤ 57) : Ends s (.next (settle u))
  | silent {t : State} (hs : Still s → Still t) (hl : LevelOk s → LevelOk t) : Ends s (.next t)

theorem Ends.stays (s : State) : Ends s (.next s) := .silent id id

/-- A command that changes nothing the two invariants read. -/
theorem Ends.same {s t : State} (e : tamePart t = tamePart s) (hb : t.tracker.atBerth = s.tracker.atBerth)
    (hr : t.readyMet = s.readyMet) (hl : t.loading = s.loading) (hv : t.sound = s.sound) : Ends s (.next t) := by
  refine .silent (fun h => ?_) fun h => levelOk_of_part h e
  simp only [tamePart, Prod.mk.injEq] at e
  exact still_of_eq h e.1 e.2.1 hb hr hl hv

/-- A command that does nothing unless a test holds. -/
theorem Ends.when {c : Prop} [Decidable c] {s t : State} (h : Ends s (.next t)) : Ends s (.next (if c then t else s)) := by
  split
  · exact h
  · exact .stays s

theorem Ends.unless {c : Prop} [Decidable c] {s t : State} (h : Ends s (.next t)) :
    Ends s (.next (if c then s else t)) := by
  split
  · exact .stays s
  · exact h

/-! ## Commands that settle nothing -/

theorem ends_carrierOn (s : State) : Ends s (execCarrierOn s) := by
  refine Ends.unless ?_
  dsimp only
  split <;> exact .same rfl rfl rfl rfl rfl

theorem ends_gapMet (s : State) : Ends s (execGapMet s) := by
  refine Ends.unless ?_
  dsimp only
  split <;> exact .same rfl rfl rfl rfl rfl

theorem ends_transmissionEnd (s : State) : Ends s (execTransmissionEnd s) := by
  unfold execTransmissionEnd
  split
  · exact .same rfl rfl rfl rfl rfl
  all_goals exact .stays s

theorem ends_beaconTimerExpiry (s : State) : Ends s (execBeaconTimerExpiry s) := by
  unfold execBeaconTimerExpiry
  split
  · exact .stays s
  · refine Ends.when ?_
    unfold beaconBecomesDue
    split
    · exact .same rfl rfl rfl rfl rfl
    · obtain ⟨_, _, _, e⟩ := requestChannel_frame (beaconWaits (loadBeaconTimer s))
      exact e.symm ▸ .same rfl rfl rfl rfl rfl

theorem ends_ownAddressTimeExpiry (s : State) : Ends s (execOwnAddressTimeExpiry s) := by
  unfold execOwnAddressTimeExpiry
  split
  · exact .stays s
  · exact .when (.same rfl rfl rfl rfl rfl)

/-- R180: after a full reset nothing is outstanding: the reset input is held, and the vehicle is in START at level 0. -/
theorem ends_fullReset (s : State) : Ends s (execFullReset s) :=
  .silent (fun _ => (still_iff _).mpr ⟨rfl, trivial, .inl rfl⟩) fun _ => ⟨rfl, trivial⟩

/-! ## Commands that settle -/

theorem ends_countdownEnd (s : State) : Ends s (execCountdownEnd s) := by
  unfold execCountdownEnd
  split
  · exact .settled (tame_chooseFrame s) (by decide)
  all_goals exact .stays s

theorem ends_cueLatenessExpiry (s : State) : Ends s (execCueLatenessExpiry s) := by
  unfold execCueLatenessExpiry
  split
  · exact .stays s
  · rename_i q _
    obtain ⟨_, e⟩ := gapWithoutWork_frame (setQueue q s)
    have hgap : tamePart (gapWithoutWork (setQueue q s)) = tamePart s := by rw [e]; rfl
    exact .settled (Tame.from hgap ((tame_tally _ _ _).trans (tame_latch 17 _))) (by decide)

theorem ends_silenceTimerExpiry (s : State) : Ends s (execSilenceTimerExpiry s) := by
  unfold execSilenceTimerExpiry
  split
  · exact .stays s
  · exact .when (.settled (Tame.from (s := fallSilent s) rfl (tame_latch 3 _)) (by decide))

theorem ends_peerStale (address : Nat) (s : State) : Ends s (execPeerStale address s) := by
  unfold execPeerStale
  split
  · exact .stays s
  · rename_i p _
    have hstale : Tame 6 s (becomeStale address p s) := .of_part (tamePart_becomeStale address p s)
    exact .when (.settled ((hstale.trans (tame_becomeLost address p _)).ite hstale.mono) (by decide))

theorem ends_peerLost (address : Nat) (s : State) : Ends s (execPeerLost address s) := by
  unfold execPeerLost
  split
  · exact .stays s
  · exact .when (.settled (tame_becomeLost _ _ s) (by decide))

/-- R76: a stop input that is asserted latches its condition, unless the reset input is held. -/
theorem ends_stopInput {s t : State} (asserted held : Bool) (id : Nat) (h : Ends s (.next t))
    (e : tamePart t = tamePart s) : Ends s (.next (if asserted then s else if held then t else settle (latch id t))) := by
  refine .unless ?_
  split
  · exact h
  · exact .settled (Tame.from e (tame_latch id t)) (by decide)

theorem ends_unlockPulseExpiry (seat : Nat) (s : State) : Ends s (execUnlockPulseExpiry seat s) := by
  unfold execUnlockPulseExpiry
  split
  · exact .stays s
  · rename_i q _
    split
    · exact .when (.settled (Tame.from (s := setSeat (seat - 1) q.pulseEnd s) rfl (tame_latch 16 _)) (by decide))
    · exact .stays s

theorem ends_durationThreshold (key : DurationKey) (counter : Nat) (s : State) :
    Ends s (execDurationThreshold key counter s) := by
  unfold execDurationThreshold
  split
  · exact .stays s
  · exact .when (.settled (.calm (offerThreshold_calm key counter s) (offerThreshold_handed key counter s)) (by decide))

theorem ends_watchExpiry (cue : Nat) (s : State) : Ends s (execWatchExpiry cue s) := by
  unfold execWatchExpiry
  split
  · exact .stays s
  · split
    · exact .when (.settled (tame_watchOccurs cue s) (by decide))
    · exact .stays s

theorem ends_fetchComplete (done : Completion) (s : State) : Ends s (execFetchComplete done s) := by
  unfold execFetchComplete
  split
  · exact .stays s
  · exact .when (.settled (.of_part (n := 0) rfl) (by decide))

theorem ends_fetchTimeout (s : State) : Ends s (execFetchTimeout s) := by
  unfold execFetchTimeout
  split
  · exact .stays s
  · exact .when (.settled (.calm (readFails_calm _ s) fun _ => readFails_handed _ s) (by decide))

theorem ends_waitExpiry (voice : Nat) (s : State) : Ends s (execWaitExpiry voice s) := by
  unfold execWaitExpiry
  split
  · exact .stays s
  · split
    · exact .when (.settled (.of_part (n := 0) rfl) (by decide))
    · exact .stays s

theorem ends_configBlockRead (block : List Byte) (s : State) : Ends s (execConfigBlockRead block s) := by
  have hfailed : Tame 19 s (failedBlock s) := Tame.from (s := loadEnds s) rfl (tame_enterFault _).mono
  exact .when (.settled ((tame_passedBlock block s).ite hfailed) (by decide))

theorem ends_imageLoadEnd (image : List Byte) (s : State) : Ends s (execImageLoadEnd image s) := by
  unfold execImageLoadEnd
  split
  · exact .stays s
  · exact .when (.settled ((tame_withImage _ image s).mono.ite (tame_noImage _ s)) (by decide))

theorem ends_listenExpiry (s : State) : Ends s (execListenExpiry s) := by
  unfold execListenExpiry
  split
  · exact .when (.settled ((tame_leaveStart s).to (tamePart_beaconAtOnce _)) (by decide))
  · exact .stays s

theorem ends_commandHeader {c : Instr} {kind : CommandKind} {source target : Nat} {s : State}
    (h : commandHeader c = some (kind, source, target)) : Ends s (exec c s) := by
  rw [exec_commandHeader h]
  exact .settled (tame_commandRow c kind source target s) (by decide)

/-- Every command ends its step in one of the two ways. -/
theorem exec_ends (c : Instr) (s : State) : Ends s (exec c s) := by
  cases c with
  | fullReset => exact ends_fullReset s
  | configBlockRead block => exact ends_configBlockRead block s
  | imageLoadEnd image => exact ends_imageLoadEnd image s
  | listenExpiry => exact ends_listenExpiry s
  | carrierOn => exact ends_carrierOn s
  | gapMet => exact ends_gapMet s
  | countdownEnd => exact ends_countdownEnd s
  | transmissionEnd => exact ends_transmissionEnd s
  | beaconTimerExpiry => exact ends_beaconTimerExpiry s
  | cueLatenessExpiry => exact ends_cueLatenessExpiry s
  | silenceTimerExpiry => exact ends_silenceTimerExpiry s
  | ownAddressTimeExpiry => exact ends_ownAddressTimeExpiry s
  | receiveFrame frame => exact .settled (tame_receive frame s) (by decide)
  | stopRide source => exact ends_commandHeader rfl
  | stopZone source zone => exact ends_commandHeader rfl
  | resume source target => exact ends_commandHeader rfl
  | dispatch source target => exact ends_commandHeader rfl
  | unlock source target seats => exact ends_commandHeader rfl
  | clear source target conditions options => exact ends_commandHeader rfl
  | retireImmediate source target => exact ends_commandHeader rfl
  | retireAtStation source target => exact ends_commandHeader rfl
  | retireLift source target => exact ends_commandHeader rfl
  | forget source target address => exact ends_commandHeader rfl
  | query source target kind selector => exact ends_commandHeader rfl
  | restart source target => exact ends_commandHeader rfl
  | peerStale address => exact ends_peerStale address s
  | peerLost address => exact ends_peerLost address s
  | odometryAdvance left right => exact .settled (tame_odometry left right s) (by decide)
  | markerReport code lateral complete =>
    exact .settled ((Tame.refl s).ite (tame_markerReport code.toNat lateral.toInt s)) (by decide)
  | permitCompute => exact .unless (.settled (tame_controlInterval s) (by decide))
  | driveFault => exact ends_stopInput s.driveFaultIn s.resetHeld 9 (.same rfl rfl rfl rfl rfl) rfl
  | localStop => exact ends_stopInput s.localStopIn s.resetHeld 10 (.same rfl rfl rfl rfl rfl) rfl
  | claimIntervalEvaluation => exact .settled (Tame.when (tame_evaluateClaims s)) (by decide)
  | windowEnd positions => exact .when (.settled (tame_windowEnd positions s) (by decide))
  | unlockPulseExpiry seat => exact ends_unlockPulseExpiry seat s
  | durationThreshold event counter => exact ends_durationThreshold event counter s
  | pendingAdvance => exact .unless (.settled (Tame.from (s := tick s) rfl (tame_servePending _)) (by decide))
  | watchExpiry cue => exact ends_watchExpiry cue s
  | outputFrame => exact .unless (.settled (tame_outputFrame s) (by decide))
  | fetchComplete samples => exact ends_fetchComplete samples s
  | fetchTimeout => exact ends_fetchTimeout s
  | waitExpiry voice => exact ends_waitExpiry voice s
  | fullResetEnd =>
    exact .when (.settled (Tame.from (s := { s with resetHeld := false }) rfl (tame_inputsAtReset _)) (by decide))
  | driveFaultInputReleased => exact .same rfl rfl rfl rfl rfl
  | localStopInputReleased => exact .same rfl rfl rfl rfl rfl
  | lineTestSample returns => exact .when (.same rfl rfl rfl rfl rfl)

/-! ## The two invariants -/

theorem Ends.still {s : State} {o : Host.Outcome State Fault Refusal} (h : Ends s o) (hs : Still s) : Answers Still o := by
  cases h with
  | settled hu hn =>
    have hentries := hu.entries
    rw [hs.notices] at hentries
    exact answers_next (settle_still _ (hentries.trans (by simpa using hn)))
  | silent hstill _ => exact answers_next (hstill hs)

theorem Ends.levelOk {s : State} {o : Host.Outcome State Fault Refusal} (h : Ends s o) (hs : LevelOk s) :
    Answers LevelOk o := by
  cases h with
  | settled hu _ => exact answers_next (settle_levelOk _ (hu.level hs))
  | silent _ hlevel => exact answers_next (hlevel hs)

/-- Settles O8: a command settles what it has done, with entries enough for the bound of the settling (log 6), or it changes
nothing that could be outstanding. -/
theorem stillKept : Obligations.StillKept :=
  kept_of_exec (fun _ _ h => still_of_eq h rfl rfl rfl rfl rfl rfl) fun c s h => (exec_ends c s).still h

/-- Settles O9: before it settles every command has the level handed on with the motion state standing at it, and settling
keeps that. -/
theorem levelKept : Obligations.LevelKept :=
  kept_of_exec (fun _ _ h => levelOk_of_part h rfl) fun c s h => (exec_ends c s).levelOk h

end Sys2Proof.Standing
end

section
/-! The arithmetic of a control interval: the exact integer square root (section 0.8.2, R68), the quotients of the steering
correction (R73), and the clamp of the curvature (R74). -/
namespace Sys2Proof.MotionControl
open Sys2Proof.Machine Sys2Proof.Safety

/-! ## The integer square root -/

/-- `r` is the greatest whole number whose square does not exceed `n`. -/
def IsRoot (n r : Nat) : Prop := r * r ≤ n ∧ n < (r + 1) * (r + 1)

/-- The search keeps the root between `acc` and what the bits still to be decided can add to it. -/
theorem isqrtGo_isRoot {n bits acc : Nat} (hlow : acc * acc ≤ n) (hhigh : n < (acc + 2 ^ bits) * (acc + 2 ^ bits)) :
    IsRoot n (isqrtGo n bits acc) := by
  induction bits generalizing acc with
  | zero => exact ⟨hlow, hhigh⟩
  | succ bits ih =>
    rw [isqrtGo]
    split
    · rename_i h
      refine ih h ?_
      rwa [Nat.add_assoc, ← Nat.two_mul, ← Nat.pow_succ']
    · rename_i h
      exact ih hlow (Nat.lt_of_not_le h)

theorem isqrt_isRoot (n : Nat) : IsRoot n (isqrt n) := by
  refine isqrtGo_isRoot (Nat.zero_le n) ?_
  have hbits : n.log2 + 1 ≤ (n.log2 / 2 + 1) + (n.log2 / 2 + 1) := by omega
  rw [Nat.zero_add, ← Nat.pow_add]
  exact Nat.lt_of_lt_of_le Nat.lt_log2_self (Nat.pow_le_pow_right (by decide) hbits)

/-! ## The braking permit (R68) -/

theorem brakingPermit_le (decel free : Nat) : brakingPermit decel free ≤ 4000 := Nat.min_le_left _ _

theorem brakingPermit_sq_le (decel free : Nat) :
    brakingPermit decel free * brakingPermit decel free ≤ 2 * decel * free :=
  (Nat.mul_self_le_mul_self (Nat.min_le_right _ _)).trans (isqrt_isRoot _).1

theorem lt_brakingPermit_sq {decel free : Nat} (h : brakingPermit decel free < 4000) :
    2 * decel * free < (brakingPermit decel free + 1) * (brakingPermit decel free + 1) := by
  have hroot : brakingPermit decel free = isqrt (2 * decel * free) := by
    unfold brakingPermit at h ⊢
    omega
  rw [hroot]
  exact (isqrt_isRoot _).2

theorem brakingPermit_zero (decel : Nat) : brakingPermit decel 0 = 0 :=
  mul_self_eq_zero.mp (Nat.le_zero.mp (brakingPermit_sq_le decel 0))

theorem permitOf_placed {s : State} {r : Route} {x : Nat} (h : s.placed = some (r, x)) :
    (permitOf s).vb = brakingPermit s.settings.decel (freeDistance r s) := by
  rw [permitOf, h]

/-- Settles O39: the digit-by-digit search finds the root, and the saturation keeps what the rule says of it. -/
theorem brakingPermitIsRoot : Obligations.BrakingPermitIsRoot := by
  refine ⟨fun s r x h => permitOf_placed h, fun decel free => ⟨brakingPermit_le decel free, brakingPermit_sq_le decel free,
    lt_brakingPermit_sq, fun hd hf => ?_, by decide, brakingPermit_zero decel⟩⟩
  calc 2 * decel * free ≤ 2 * 2000 * 4096000 := Nat.mul_le_mul (Nat.mul_le_mul_left 2 hd) hf
    _ = 16384000000 := rfl

/-! ## The steering correction (R73) -/

theorem steerCorrection_within {kl fade since : Nat} {e : Int} (h : since < fade) : steerCorrection kl fade e since
    = ((-((kl * e).tdiv 16)) * ((fade : Int) - since)).tdiv fade := if_pos h

theorem steerCorrection_beyond {kl fade since : Nat} {e : Int} (h : fade ≤ since) : steerCorrection kl fade e since = 0 :=
  if_neg (Nat.not_lt.mpr h)

theorem steerCorrection_no_gain (fade since : Nat) (e : Int) : steerCorrection 0 fade e since = 0 := by
  simp [steerCorrection]

/-- A product of two magnitudes within bounds is within their product. -/
theorem mul_within {a b : Int} {m n : Nat} (ha : a.natAbs ≤ m) (hb : b.natAbs ≤ n) :
    -((m * n : Nat) : Int) ≤ a * b ∧ a * b ≤ ((m * n : Nat) : Int) := by
  have h : (a * b).natAbs ≤ m * n := Int.natAbs_mul a b ▸ Nat.mul_le_mul ha hb
  omega

theorem rawCurvature_placed {s : State} {r : Route} {x : Nat} (h : s.placed = some (r, x)) (h1 : s.motion.state ≠ .start)
    (h2 : s.motion.state ≠ .fault) : rawCurvature s = some (r.curvatureAt x
      + steerCorrection s.settings.lateralGain s.settings.fadeDistance s.tracker.lateral s.sinceMm) := by
  simp [rawCurvature, h, h1, h2]

/-- Settles O40: each clause is one branch of the correction, or a bound on a product of magnitudes. -/
theorem steeringCorrection : Obligations.SteeringCorrection := by
  refine ⟨fun _ _ _ _ h => steerCorrection_within h, fun _ _ _ _ h => steerCorrection_beyond h,
    fun fade e since => steerCorrection_no_gain fade since e, fun kl e hk hlow hhigh => ?_,
    fun corr fade since hlow hhigh hf hs => ?_, fun s r x h h1 h2 => rawCurvature_placed h h1 h2, rfl, rfl⟩
  · obtain ⟨h1, h2⟩ := mul_within (a := kl) (b := e) (m := 255) (n := 200) (by omega) (by omega)
    have hq : ((kl * e).tdiv 16).natAbs = (kl * e : Int).natAbs / 16 := Int.natAbs_tdiv _ _
    omega
  · obtain ⟨h1, h2⟩ := mul_within (a := corr) (b := (fade : Int) - since) (m := 3187) (n := 5000) (by omega) (by omega)
    omega

/-! ## The curvature demand (R74) -/

theorem curvatureDemand_none {s : State} (h : rawCurvature s = none) : curvatureDemand s = (0, false) := by
  rw [curvatureDemand, h]

/-- R74: the raw curvature is kept within the limit, and the clamp is noted when it changes it. -/
theorem curvatureDemand_some {s : State} {k : Int} (h : rawCurvature s = some k) :
    (curvatureDemand s).1 = max (-(s.settings.curvatureLimit : Int)) (min (s.settings.curvatureLimit : Int) k)
      ∧ ((curvatureDemand s).2 = true
        ↔ k < -(s.settings.curvatureLimit : Int) ∨ (s.settings.curvatureLimit : Int) < k) := by
  rw [curvatureDemand, h]
  simp only [clampInt, bne_iff_ne, ne_eq]
  constructor <;> (repeat' split) <;> omega

end Sys2Proof.MotionControl
end

section
/-! The commands of the Motion Controller that are given to it: DISPATCH, RESUME and RETIRE (R60 to R63), and the two stop
inputs (R76). Where nothing is outstanding and an entry brings no side effects, the next state is exact. -/
namespace Sys2Proof.MotionControl
open Sys2Proof.Machine Sys2Proof.Safety Sys2Proof.RideLink Sys2Proof.Standing

/-! ## Entries, waiting and handed on -/

/-- The entries that wait are the model's own (log 6): `Aside` does not read them. -/
theorem aside_waiting (s : State) (ns : List MotionState) :
    Aside s { s with motion := { s.motion with notices := ns } } :=
  { Aside.refl s with outside := { SameOutside.refl s with }, sizes := { SameSizes.refl s with } }

/-- Settling begins with the standing judgement (R54 to R56). -/
theorem settle_judged_aside (s : State) : Aside (judgeStanding s) (settle s) := by
  have hloop : Aside (judgeStanding s) (settleLoop 64 s) := by
    rw [settleLoop]
    split
    · exact Aside.refl _
    · exact (atOnce_calm _).toAside.trans (settleLoop_aside 63 _)
  exact hloop.trans (arbitrate_calm _).toAside

/-- Where the handing on of the entries leaves nothing outstanding, settling does no more than that. -/
theorem settle_eq_atOnce {s : State} (hj : Judged s) (h : Still (atOnce s)) : settle s = atOnce s := by
  cases hn : s.motion.notices with
  | nil =>
    rw [atOnce_quiet hn] at h ⊢
    exact h.settle
  | cons st rest =>
    have hrest : settleLoop 63 (atOnce s) = atOnce s := by
      rw [settleLoop, h.judged, h.notices]
    have hloop : settleLoop 64 s = atOnce s := by
      rw [settleLoop, (judgeStanding_eq_iff s).mpr hj, hn]
      exact hrest
    rw [settle, hloop, h.granted]

/-- R116, R137: an entry into RUNNING that no cue waits for withdraws the unlock conditions and ends HOLD_LONG. -/
theorem deliver_running {s : State} (hc : noMotionCue s .running) :
    deliverBy waits .running s = endDuration .holdLong (withdrawUnlock s) := by
  have hnone : cuesWhere (fun t => t = .motion MotionState.running.code) (endDuration .holdLong (withdrawUnlock s)) = [] :=
    hc
  show occurWhereBy waits _ (endDuration .holdLong (withdrawUnlock s)) = _
  rw [occurWhereBy, hnone]
  rfl

/-- RUNNING as a DISPATCH or a RESUME enters it (R60, R61). -/
def runningFrom (s : State) : State := { s with motion := { s.motion with state := .running, dPrev := 0 } }

theorem startRunning_aside (s : State) : Aside (runningFrom s) (startRunning s) := aside_waiting (runningFrom s) _

/-- R78: the entry into RUNNING handed on, where nothing was outstanding and no cue waits for it. -/
theorem atOnce_startRunning {s : State} (h : Still s) (hc : noMotionCue s .running) :
    atOnce (startRunning s) = endDuration .holdLong (withdrawUnlock (runningFrom s)) := by
  have hn : (startRunning s).motion.notices = [.running] := by
    show s.motion.notices ++ [.running] = _
    rw [h.notices]
    rfl
  have hp : { startRunning s with motion := { (startRunning s).motion with notices := [] } } = runningFrom s := by
    show { s with motion := { s.motion with state := .running, dPrev := 0, notices := [] } } = _
    rw [← h.notices]
    rfl
  rw [atOnce, handNotices_cons 63 hn, hp, deliver_running (s := runningFrom s) hc, handNotices]
  rw [show (endDuration .holdLong (withdrawUnlock (runningFrom s))).motion.notices = [] from h.notices]

theorem still_atOnce_startRunning {s : State} (h : Still s) (hc : noMotionCue s .running) :
    Still (atOnce (startRunning s)) := by
  rw [atOnce_startRunning h hc]
  exact (still_iff _).mpr ⟨h.notices, trivial, (still_granted h).of_eq rfl rfl⟩

theorem still_received {s : State} (h : Still s) : Still (received s) := still_of_eq h rfl rfl rfl rfl rfl rfl

theorem settle_received {s : State} (h : Still s) : settle (received s) = received s := (still_received h).settle

theorem settle_refuse {s : State} (h : Still s) (kind : CommandKind) (reason : RefusalReason) (source : Nat) :
    settle (refuse kind reason source (received s)) = refuse kind reason source (received s) :=
  settle_link h _ _

/-! ## DISPATCH (R60) -/

theorem exec_dispatch {s : State} {source target : Nat} (h : Accepted s .dispatch source target) :
    exec (.dispatch source target) s = .next (settle (ownDispatch source (received s))) := by
  rw [exec_commandHeader rfl, commandRow_accepted h]
  rfl

theorem ownDispatch_ready {s : State} (h : s.motion.state = .ready) (source : Nat) :
    ownDispatch source s = startRunning s := if_pos h

theorem ownDispatch_elsewhere {s : State} (h : s.motion.state ≠ .ready) (source : Nat) :
    ownDispatch source s = refuse .dispatch .wrongState source s := if_neg h

/-- Settles O29: outside READY the refusal touches the link alone; in READY RUNNING is entered, and without a cue for it the
entry is handed on with nothing to follow. -/
theorem dispatchJudged : Obligations.DispatchJudged := by
  intro s source target hacc hs
  rw [exec_dispatch hacc]
  refine ⟨fun hm => ?_, fun hm => ?_⟩
  · rw [ownDispatch_elsewhere (s := received s) hm, settle_refuse hs]
  · rw [ownDispatch_ready (s := received s) hm]
    have haside : Aside (runningFrom (received s)) (settle (startRunning (received s))) :=
      (startRunning_aside _).trans (settle_aside _)
    refine ⟨⟨_, rfl, haside⟩, fun hc => ?_⟩
    have heq := settle_eq_atOnce (s := startRunning (received s)) trivial
      (still_atOnce_startRunning (still_received hs) hc)
    rw [atOnce_startRunning (still_received hs) hc] at heq
    exact ⟨_, rfl, by rw [heq]; rfl, by rw [heq]; rfl, by rw [heq]; rfl, by rw [heq]; rfl, haside⟩

/-! ## RESUME (R61) -/

theorem exec_resume {s : State} {source target : Nat} (h : Accepted s .resume source target) :
    exec (.resume source target) s = .next (settle (ownResume source (received s))) := by
  rw [exec_commandHeader rfl, commandRow_accepted h]
  rfl

theorem exec_resume_refused {s : State} {source target : Nat} (h : Accepted s .resume source target) (hs : Still s)
    {reason : RefusalReason} (hr : resumeRefusal s = some reason) :
    exec (.resume source target) s = .next (refuse .resume reason source (received s)) := by
  have hown : ownResume source (received s) = refuse .resume reason source (received s) := by
    rw [ownResume, show resumeRefusal (received s) = some reason from hr]
  rw [exec_resume h, hown, settle_refuse hs]

theorem exec_resume_taken {s : State} {source target : Nat} (h : Accepted s .resume source target)
    (hr : resumeRefusal s = none) :
    exec (.resume source target) s = .next (settle (takeResume (received s))) := by
  have hown : ownResume source (received s) = takeResume (received s) := by
    rw [ownResume, show resumeRefusal (received s) = none from hr]
  rw [exec_resume h, hown]

theorem resumeAnnouncement_no_clip {s : State} (h : s.settings.resumeClip = none) : resumeAnnouncement s = s := by
  rw [resumeAnnouncement, h]

/-- R61, R77: a RESUME taken enters RUNNING; the announcement is aside. -/
theorem takeResume_aside (s : State) : Aside (runningFrom s) (takeResume s) :=
  (startRunning_aside s).trans ((atOnce_calm _).trans (resumeAnnouncement_calm _)).toAside

/-- Settles O28: the checks in their order choose the refusal; without a clip and a cue nothing follows the entry. -/
theorem resumeJudged : Obligations.ResumeJudged := by
  intro s source target hacc hs
  refine ⟨fun hm => ?_, fun hm hl => ?_, fun hm hl hv => ?_, fun hm hl hv hc => ?_, fun hm hl hv hu hlost hi => ?_,
    fun hm hl hv hu hlost hi => ?_⟩
  · exact exec_resume_refused hacc hs (by simp [resumeRefusal, hm])
  · exact exec_resume_refused hacc hs (by simp [resumeRefusal, hm, hl])
  · exact exec_resume_refused hacc hs (by simp [resumeRefusal, hm, Nat.not_lt.mpr hl, hv])
  · exact exec_resume_refused hacc hs (by simp [resumeRefusal, hm, Nat.not_lt.mpr hl, hv, hc])
  · exact exec_resume_refused hacc hs (by simp [resumeRefusal, hm, Nat.not_lt.mpr hl, hv, hu, hlost, hi])
  · rw [exec_resume_taken hacc (by simp [resumeRefusal, hm, Nat.not_lt.mpr hl, hv, hu, hlost, hi])]
    have haside : Aside (runningFrom (received s)) (settle (takeResume (received s))) :=
      (takeResume_aside _).trans (settle_aside _)
    refine ⟨⟨_, rfl, haside⟩, fun hclip hcue => ?_⟩
    have hstill := still_atOnce_startRunning (still_received hs) hcue
    have heq : settle (takeResume (received s)) = atOnce (startRunning (received s)) := by
      rw [takeResume, resumeAnnouncement_no_clip, hstill.settle]
      rw [(atOnce_calm _).outside.settings]
      exact hclip
    rw [atOnce_startRunning (still_received hs) hcue] at heq
    exact ⟨_, rfl, by rw [heq]; rfl, by rw [heq]; rfl, by rw [heq]; rfl, by rw [heq]; rfl, haside⟩

/-! ## RETIRE (R62, R63) -/

/-- R54: a retire flag is against the READY requirements. -/
theorem readyMet_retired {s : State} (h : s.motion.immediate = true ∨ s.motion.atStation = true) : s.readyMet = false := by
  rcases h with h | h <;> simp [State.readyMet, h]

theorem readyMet_flags {s : State} (h : s.readyMet = true) : s.motion.immediate = false ∧ s.motion.atStation = false := by
  have hi := mt (readyMet_retired (s := s)) (by simp [h])
  simpa only [not_or, Bool.not_eq_true] using hi

/-- The standing judgements read only whether the READY requirements are met, in PARKED and READY. -/
theorem judged_of_readyMet {s t : State} (h : Judged s) (hm : t.motion.state = s.motion.state)
    (hb : t.tracker.atBerth = s.tracker.atBerth) (hp : s.motion.state = .parked → t.readyMet = false)
    (hr : s.motion.state = .ready → t.readyMet = true) : Judged t := by
  unfold Judged at h ⊢
  rw [hm, hb]
  split <;> simp_all

/-- R62, R63: outside READY the setting of a retire flag leaves nothing outstanding. -/
theorem still_retired {s t : State} (h : Still s) (hready : s.motion.state ≠ .ready)
    (hflag : t.motion.immediate = true ∨ t.motion.atStation = true) (hn : t.motion.notices = s.motion.notices)
    (hm : t.motion.state = s.motion.state) (hb : t.tracker.atBerth = s.tracker.atBerth) (hl : t.loading = s.loading)
    (he : t.sound = s.sound) : Still t :=
  (still_iff t).mpr ⟨hn.trans h.notices, judged_of_readyMet (still_judged h) hm hb (fun _ => readyMet_retired hflag)
    (fun e => absurd e hready), (still_granted h).of_eq hl he⟩

/-- R54: READY stands at the berth with its requirements met. -/
theorem still_ready {s : State} (h : Still s) (hm : s.motion.state = .ready) :
    s.tracker.atBerth = true ∧ s.readyMet = true := by
  have hj := still_judged h
  rw [Judged, hm] at hj
  exact hj

theorem exec_retireImmediate {s : State} {source target : Nat} (h : Accepted s .retire source target) :
    exec (.retireImmediate source target) s = .next (settle (ownRetireImmediate (received s))) := by
  rw [exec_commandHeader rfl, commandRow_accepted h]
  rfl

theorem exec_retireAtStation {s : State} {source target : Nat} (h : Accepted s .retire source target) :
    exec (.retireAtStation source target) s = .next (settle (ownRetireAtStation (received s))) := by
  rw [exec_commandHeader rfl, commandRow_accepted h]
  rfl

theorem exec_retireLift {s : State} {source target : Nat} (h : Accepted s .retire source target) :
    exec (.retireLift source target) s = .next (settle (ownRetireLift (received s))) := by
  rw [exec_commandHeader rfl, commandRow_accepted h]
  rfl

theorem ownRetireImmediate_set {s : State} (h : s.motion.immediate = true) : ownRetireImmediate s = s := if_pos h

theorem setImmediate_set {s : State} (h : s.motion.immediate = true) : setImmediate s = s := by
  unfold setImmediate
  rw [← h]

/-- R62: outside READY, RUNNING and HOLDING the flag alone is set. -/
theorem ownRetireImmediate_rest {s : State} (h : s.motion.state = .start ∨ s.motion.state = .fault
    ∨ s.motion.state = .parked ∨ s.motion.state = .stopping ∨ s.motion.state = .stopped ∨ s.motion.state = .estop) :
    ownRetireImmediate s = setImmediate s := by
  cases hi : s.motion.immediate with
  | true => rw [ownRetireImmediate_set hi, setImmediate_set hi]
  | false => rcases h with h | h | h | h | h | h <;> simp [ownRetireImmediate, hi, h]

theorem ownRetireImmediate_moves {s : State} (hi : s.motion.immediate = false)
    (h : s.motion.state = .ready ∨ s.motion.state = .running ∨ s.motion.state = .holding) :
    ownRetireImmediate s = enter .stopping (setImmediate s) := by
  rcases h with h | h | h <;> simp [ownRetireImmediate, hi, h]

theorem ownRetireLift_unset {s : State} (hi : s.motion.immediate = false) (ha : s.motion.atStation = false) :
    ownRetireLift s = s := by
  show _ = { s with motion := { s.motion with immediate := s.motion.immediate, atStation := s.motion.atStation } }
  rw [hi, ha]
  rfl

/-- R63, R54: with the AT_STATION flag set, settling leaves READY for PARKED and does not come back to it. -/
theorem settle_retireAtStation_ready {s : State} (h : Still s) (hm : s.motion.state = .ready) :
    (settle (ownRetireAtStation s)).motion.state ≠ .ready
      ∧ Aside { s with motion := { s.motion with state := .parked, atStation := true } }
          (settle (ownRetireAtStation s)) := by
  have hflag : (ownRetireAtStation s).readyMet = false := readyMet_retired (.inr rfl)
  have hparked : judgeStanding (ownRetireAtStation s) = enter .parked (ownRetireAtStation s) := by
    have hm' : (ownRetireAtStation s).motion.state = .ready := hm
    have hb' : (ownRetireAtStation s).tracker.atBerth = true := (still_ready h hm).1
    simp [judgeStanding, hm', hb', hflag]
  have haside : Aside (enter .parked (ownRetireAtStation s)) (settle (ownRetireAtStation s)) :=
    hparked ▸ settle_judged_aside _
  refine ⟨fun hready => ?_, (aside_waiting { s with motion := { s.motion with state := .parked, atStation := true } } _).trans
    haside⟩
  have hstill : Still (settle (ownRetireAtStation s)) := settle_still _ (by
    rw [show (ownRetireAtStation s).motion.notices = [] from h.notices]
    exact Nat.zero_le _)
  have hmet := (still_ready hstill hready).2
  rw [readyMet_retired (.inr haside.outside.atStation)] at hmet
  exact nomatch hmet

/-- Settles O32: a flag that is set or lifted leaves nothing outstanding where the READY requirements do not change what
stands; elsewhere the entry it makes is the one of R62, or R54's judgement follows. -/
theorem retireTaken : Obligations.RetireTaken := by
  intro s source target hacc hs
  have hr := still_received hs
  rw [exec_retireImmediate hacc, exec_retireAtStation hacc, exec_retireLift hacc]
  refine ⟨fun hi => ?_, fun hm => ?_, fun hi hm => ?_, fun hm => ?_, fun hm => ?_, fun hm => ?_, fun hm => ?_⟩
  · rw [ownRetireImmediate_set (s := received s) hi, settle_received hs]
  · rw [ownRetireImmediate_rest (s := received s) hm]
    exact congrArg _ (still_retired hr (by rcases hm with hm | hm | hm | hm | hm | hm <;> simp [received, hm])
      (t := setImmediate (received s)) (.inl rfl) rfl rfl rfl rfl rfl).settle
  · rw [ownRetireImmediate_moves (s := received s) hi hm]
    have haside := (aside_waiting
      { received s with motion := { s.motion with state := .stopping, immediate := true } } _).trans
        (settle_aside (enter .stopping (setImmediate (received s))))
    exact ⟨_, rfl, haside.stopping rfl, haside⟩
  · exact congrArg _ (still_retired hr hm (t := ownRetireAtStation (received s)) (.inr rfl) rfl rfl rfl rfl rfl).settle
  · obtain ⟨hne, haside⟩ := settle_retireAtStation_ready hr hm
    exact ⟨_, rfl, hne, haside⟩
  · have hlift : s.motion.state = .ready → (ownRetireLift (received s)).readyMet = true := fun hready => by
      have hmet := (still_ready hr hready).2
      obtain ⟨hi, ha⟩ := readyMet_flags hmet
      rw [ownRetireLift_unset hi ha, hmet]
    exact congrArg _ (Still.settle ((still_iff (ownRetireLift (received s))).mpr
      ⟨hr.notices, judged_of_readyMet (still_judged hr) rfl rfl (fun e => absurd e hm) hlift,
        (still_granted hr).of_eq rfl rfl⟩))
  · exact ⟨_, rfl, settle_aside (ownRetireLift (received s))⟩

/-! ## The stop inputs (R76) -/

/-- R58, R76: a fixed condition of level 7 that is latched puts the level at 7. -/
theorem settle_latch_seven {s : State} {id : Nat} (hs : TablesOk s) (hid : 1 ≤ id) (hle : id ≤ 25)
    (hfix : fixedCondition id = true) (hlevel : defaultLevels.getD (id - 1) 0 = 7) :
    Latched (settle (latch id s)) id ∧ 7 ≤ (settle (latch id s)).level ∧ Aside s (settle (latch id s)) := by
  have haside : Aside s (settle (latch id s)) := (latch_calm id s).toAside.trans (settle_aside _)
  have hlatched : Latched (settle (latch id s)) id := latched_settle_latch hid hle hs rfl
  exact ⟨hlatched, hlevel ▸ level_le_of_latched hs hfix haside hlatched, haside⟩

/-- Settles O44: the line is taken first, and the condition it latches is fixed at level 7. -/
theorem stopInputs : Obligations.StopInputs := by
  intro s htab
  refine ⟨fun hin hreset => ?_, fun hin hreset => ?_, fun hin => ?_, rfl, fun hin hreset => ?_, fun hin hreset => ?_,
    fun hin => ?_, rfl⟩
  · obtain ⟨hlatched, hlevel, haside⟩ := settle_latch_seven (s := { s with driveFaultIn := true }) (id := 9) { htab with }
      (by decide) (by decide) (by decide) rfl
    exact ⟨_, by simp [exec, execDriveFault, hin, hreset], hlatched, haside.outside.driveFaultIn, hlevel, haside⟩
  · simp [exec, execDriveFault, hin, hreset]
  · simp [exec, execDriveFault, hin]
  · obtain ⟨hlatched, hlevel, haside⟩ := settle_latch_seven (s := { s with localStopIn := true }) (id := 10) { htab with }
      (by decide) (by decide) (by decide) rfl
    exact ⟨_, by simp [exec, execLocalStop, hin, hreset], hlatched, haside.outside.localStopIn, hlevel, haside⟩
  · simp [exec, execLocalStop, hin, hreset]
  · simp [exec, execLocalStop, hin]

end Sys2Proof.MotionControl
end

section
/-! What the shared operations do to the motion state: they change it by the level alone (R58, Table 4.5). A property that
depends on the motion state and a level that does not fall, and that the level's effect keeps, is therefore kept by the
handing on of entries and by an arrival at the tallies (`StateKept`). -/
namespace Sys2Proof.MotionControl
open Sys2Proof.Machine Sys2Proof.Safety Sys2Proof.Standing

/-! ## Properties kept under a hand-over -/

/-- A property that side effects keep while the motion state and the entries that wait stay, and that a level taken up and
handed on by `h` keeps. -/
structure LevelClosed (h : State → State) (P : State → Prop) : Prop where
  frame : ∀ {s t}, Aside s t → t.motion.state = s.motion.state → t.motion.notices = s.motion.notices → P s → P t
  level : ∀ {s}, P s → P (h (applyLevel s))

/-- Each of a list's operations keeps the property. -/
theorem foldl_keeps {α : Type} {P : State → Prop} {f : State → α → State} (hf : ∀ x {s}, P s → P (f s x)) (xs : List α)
    {s : State} (hs : P s) : P (xs.foldl f s) := by
  induction xs generalizing s with
  | nil => exact hs
  | cons x xs ih => exact ih (hf x hs)

section
variable {h : State → State} {P : State → Prop} (hP : LevelClosed h P)
include hP

/-- An operation that leaves the motion item alone. -/
theorem LevelClosed.motion {s t : State} (hc : Calm s t) (hm : t.motion = s.motion) (hs : P s) : P t :=
  hP.frame hc.toAside (by rw [hm]) (by rw [hm]) hs

/-- The record of which announcements hold a voice. -/
theorem LevelClosed.voiceFlags (stop resume : Bool) {s : State} (hs : P s) :
    P { s with motion := { s.motion with stopVoice := stop, resumeVoice := resume } } :=
  hP.frame (Calm.motion s { s.motion with stopVoice := stop, resumeVoice := resume } rfl rfl rfl rfl rfl
    (Nat.le_refl _)).toAside rfl rfl hs

theorem LevelClosed.handLevelBy {s : State} (hs : P s) : P (handLevelBy h s) := by
  unfold Machine.handLevelBy
  split
  · exact hs
  · have haside : Aside s { s with cond := { s.cond with handed := s.level } } :=
      { Aside.refl s with
        outside := { SameOutside.refl s with }
        grows := CondGrows.of_eq rfl rfl rfl (sameCounters rfl)
        sizes := { SameSizes.refl s with } }
    exact hP.level (hP.frame haside rfl rfl hs)

theorem LevelClosed.levelStepBy (hold : Bool) {s : State} (hs : P s) : P (levelStepBy h hold s) := by
  unfold Machine.levelStepBy
  split
  · exact hs
  · exact hP.handLevelBy hs

theorem LevelClosed.onRecord (id : Nat) {f : Condition → Condition} (hf : ∀ c, RecordGrows c (f c)) {s : State}
    (hs : P s) : P (onRecord id f s) := hP.motion (onRecord_calm id f hf s) rfl hs

theorem LevelClosed.arbitrate {s : State} (hs : P s) : P (arbitrate s) :=
  hP.motion (arbitrate_calm s) (arbitrate_motion s) hs

theorem LevelClosed.endWithoutBy (hold : Bool) (tag : VoiceTag) {s : State} (hs : P s) :
    P (endWithoutBy h hold tag s) := by
  unfold Machine.endWithoutBy
  split
  · exact hs
  · exact hP.levelStepBy hold (hP.onRecord _ voiceEnd_grows hs)
  · exact hP.voiceFlags false _ hs
  · exact hP.voiceFlags _ false hs

theorem LevelClosed.requestVoiceBy (hold : Bool) (req : StartRequest) {s : State} (hs : P s) :
    P (requestVoiceBy h hold req s).1 := by
  unfold Machine.requestVoiceBy
  dsimp only
  have hplaced : P (Machine.arbitrate { s with sound := (startVoice s req).engine }) :=
    hP.arbitrate (hP.motion (Calm.sound s _ (startVoice_engine s req)) rfl hs)
  split
  · exact hplaced
  · exact hP.endWithoutBy hold _ hplaced

theorem LevelClosed.fillFirstFault (id : Nat) {s : State} (hs : P s) : P (fillFirstFault id s) := by
  refine hP.motion (fillFirstFault_calm id s) ?_ hs
  unfold Machine.fillFirstFault
  split
  · rfl
  · split <;> rfl

theorem LevelClosed.announceBy (hold : Bool) (id : Nat) {s : State} (hs : P s) : P (announceBy h hold id s).1 := by
  unfold Machine.announceBy
  split
  · exact hs
  · split
    · exact hs
    · split
      · exact hP.onRecord _ drop_grows hs
      · rename_i clip _
        dsimp only
        have hasked := hP.requestVoiceBy hold (conditionRequest id clip) hs
        split
        · exact hP.onRecord _ (f := fun c => { c with announcement := .counting })
            (fun _ => ⟨fun h => h, fun h => h, rfl, rfl, rfl, rfl, Nat.le_refl _⟩) hasked
        · exact hP.onRecord _ drop_grows hasked

theorem LevelClosed.occurrenceBy (hold : Bool) (id : Nat) {s : State} (hs : P s) : P (occurrenceBy h hold id s).1 :=
  hP.announceBy hold id (hP.fillFirstFault id (hP.onRecord id latchFlag_grows hs))

theorem LevelClosed.tallyCore (offered : Nat → Bool) (event : TallyEvent) (amount : Nat) {s : State} (hs : P s) :
    P (tallyCore offered event amount s).1 := hP.motion (tallyCore_calm offered event amount s) rfl hs

theorem LevelClosed.latchWithBy (hold : Bool) (fuel id : Nat) {s : State} (hs : P s) :
    P (latchWithBy h hold fuel id s) := by
  induction fuel generalizing id s with
  | zero =>
    rw [Machine.latchWithBy]
    refine hP.levelStepBy hold ?_
    split
    · exact hP.tallyCore _ _ _ (hP.occurrenceBy hold id hs)
    · exact hP.occurrenceBy hold id hs
  | succ n ih =>
    rw [Machine.latchWithBy]
    refine hP.levelStepBy hold ?_
    split
    · exact foldl_keeps (fun k {_} hk => ih (19 + k) hk) _ (hP.tallyCore _ _ _ (hP.occurrenceBy hold id hs))
    · exact hP.occurrenceBy hold id hs

theorem LevelClosed.latchBy (id : Nat) {s : State} (hs : P s) : P (latchBy h id s) := hP.latchWithBy false 4 id hs

theorem LevelClosed.tallyBy (event : TallyEvent) (amount : Nat) {s : State} (hs : P s) :
    P (tallyBy h event amount s) :=
  foldl_keeps (fun k {_} hk => hP.latchBy (19 + k) hk) _ (hP.tallyCore _ _ _ hs)

theorem LevelClosed.stealEventBy (r : StartResult) {s : State} (hs : P s) : P (stealEventBy h r s) := by
  unfold Machine.stealEventBy
  split
  · exact hP.tallyBy _ _ hs
  · exact hs

theorem LevelClosed.cueOccurBy (id : Nat) {s : State} (hs : P s) : P (cueOccurBy h s id) := by
  unfold Machine.cueOccurBy
  split
  · exact hs
  · split
    · exact hs
    · split
      · exact hP.latchBy 17 (hP.tallyBy _ _ hs)
      · rename_i hroom
        exact hP.motion (fireCue_calm _ _ s (by simpa [Config.waitingCap] using hroom)) rfl hs

theorem LevelClosed.occurWhereBy (p : CueTrigger → Bool) {s : State} (hs : P s) : P (occurWhereBy h p s) :=
  foldl_keeps (fun id {_} hk => hP.cueOccurBy id hk) _ hs

theorem LevelClosed.stopAnnouncementBy {s : State} (hs : P s) : P (stopAnnouncementBy h s) := by
  unfold Machine.stopAnnouncementBy
  split
  · exact hs
  · split
    · exact hs
    · exact hP.stealEventBy _ (hP.voiceFlags _ _ (hP.requestVoiceBy false _ hs))

theorem LevelClosed.fadeShowBy {s : State} (hs : P s) : P (fadeShowBy h s) :=
  foldl_keeps (fun t {_} hk => hP.endWithoutBy false t hk) _
    (hP.arbitrate (hP.motion (Calm.sound s _ (stopVoices_engine s.now _ s.sound)) rfl hs))

theorem LevelClosed.deliverBy (st : MotionState) {s : State} (hs : P s) : P (deliverBy h st s) := by
  unfold Machine.deliverBy
  dsimp only
  refine hP.occurWhereBy _ ?_
  have h1 : P (if st = .parked then s else withdrawUnlock s) := by
    split
    · exact hs
    · exact hP.motion (withdrawUnlock_calm s) rfl hs
  generalize (if st = .parked then s else withdrawUnlock s) = a at h1 ⊢
  have h2 : P (if st = .holding then startDuration .holdLong a else endDuration .holdLong a) := by
    split
    · exact hP.motion (startDuration_calm _ a) rfl h1
    · exact hP.motion (endDuration_calm _ a) rfl h1
  generalize (if st = .holding then startDuration .holdLong a else endDuration .holdLong a) = b at h2 ⊢
  split
  · exact hP.motion (withdrawShow_calm _) rfl (hP.stopAnnouncementBy (hP.fadeShowBy h2))
  · exact h2

end

/-! ## Properties of the motion state and the level -/

/-- A property of the motion state that a level which does not fall keeps. -/
structure StateKept (P : State → Prop) : Prop where
  frame : ∀ {s t}, Aside s t → t.motion.state = s.motion.state → P s → P t
  level : ∀ {s}, P s → P (applyLevel s)

section
variable {P : State → Prop} (hP : StateKept P)
include hP

theorem StateKept.waits : LevelClosed waits P := ⟨fun ha hm _ => hP.frame ha hm, hP.level⟩

/-- R78: the handing on of the entries that wait keeps the property. -/
theorem StateKept.atOnce {s : State} (hs : P s) : P (atOnce s) := by
  suffices hn : ∀ n s, P s → P (handNotices n s) from hn 64 s hs
  intro n
  induction n with
  | zero => exact fun s hs => hP.frame (dropNotices_calm s).toAside rfl hs
  | succ n ih =>
    intro s hs
    rw [handNotices]
    split
    · exact hs
    · rename_i e
      exact ih _ (hP.waits.deliverBy _ (hP.frame (takeNotice_calm e).toAside rfl hs))

/-- Outside the handing on of an entry every entry is handed on at once (R78). -/
theorem StateKept.quiet : LevelClosed Machine.atOnce fun s => P s ∧ s.motion.notices = [] where
  frame := fun ha hm hn hs => ⟨hP.frame ha hm hs.1, hn.trans hs.2⟩
  level := fun hs => ⟨hP.atOnce (hP.level hs.1), atOnce_notices _⟩

/-- R136: an arrival at the tallies keeps the property, and leaves no entry waiting. -/
theorem StateKept.tally (event : TallyEvent) (amount : Nat) {s : State} (hs : P s) (hn : s.motion.notices = []) :
    P (tally event amount s) ∧ (tally event amount s).motion.notices = [] :=
  hP.quiet.tallyBy event amount ⟨hs, hn⟩

end

/-- What the level makes of a vehicle that moves in state `m`: it stays so, or enters STOPPING, or ESTOP at level 7. -/
def MovingFrom (m : MotionState) (s : State) : Prop :=
  s.motion.state = m ∨ s.motion.state = .stopping ∨ (s.motion.state = .estop ∧ 7 ≤ s.level)

/-- R58, Table 4.5: RUNNING, HOLDING and STOPPING. -/
theorem movingFrom_kept {m : MotionState} (hm : m.moving = true) : StateKept (MovingFrom m) where
  frame := fun ha he h => by
    have hl := ha.level
    unfold MovingFrom at h ⊢
    rw [he]
    exact h.imp_right (Or.imp_right fun e => ⟨e.1, e.2.trans hl⟩)
  level := fun {s} h => by
    have hl : (applyLevel s).level = s.level := by rw [State.level, applyLevel_cond]; rfl
    unfold MovingFrom at h ⊢
    rw [hl]
    rcases h with h | h | ⟨h, h7⟩
    · cases m with
      | running | holding =>
        simp only [applyLevel, h]
        split
        · exact .inr (.inr ⟨rfl, by assumption⟩)
        · split
          · exact .inr (.inl rfl)
          · exact .inl h
      | stopping =>
        simp only [applyLevel, h]
        split
        · exact .inr (.inr ⟨rfl, by assumption⟩)
        · exact .inl h
      | start | fault | parked | ready | stopped | estop => exact nomatch hm
    · simp only [applyLevel, h]
      split
      · exact .inr (.inr ⟨rfl, by assumption⟩)
      · exact .inr (.inl h)
    · simp only [applyLevel, h]
      rw [if_neg (by omega)]
      exact .inr (.inr ⟨h, h7⟩)

/-- The vehicle stands in STOPPED or ESTOP. -/
def Halted (s : State) : Prop := s.motion.state = .stopped ∨ s.motion.state = .estop

/-- R58, R59: the level moves a vehicle between STOPPED and ESTOP only. -/
theorem halted_kept : StateKept Halted where
  frame := fun _ he h => by rwa [Halted, he]
  level := fun {s} h => by
    unfold Halted at h ⊢
    rcases h with h | h <;> simp only [applyLevel, h] <;> split
    · exact .inr rfl
    · exact .inl h
    · exact .inl rfl
    · exact .inr h

theorem Halted.brake {s : State} (h : Halted s) : s.brakeLine = true := by
  rcases h with h | h <;> simp [State.brakeLine, MotionState.brake, h]

/-- No standing judgement is about a vehicle that moves, or that a level of 7 has put into ESTOP. -/
theorem MovingFrom.judged {m : MotionState} {s : State} (hm : m.moving = true) (h : MovingFrom m s) : Judged s := by
  have hne : ∀ st : MotionState, st.moving = false → st ≠ .estop → s.motion.state ≠ st := by
    rintro st hst he rfl
    rcases h with h | h | h
    · rw [h, hm] at hst
      exact nomatch hst
    · rw [h] at hst
      exact nomatch hst
    · exact he h.1
  exact judged_of_state (hne _ rfl nofun) (hne _ rfl nofun) (hne _ rfl nofun)

end Sys2Proof.MotionControl
end

section
/-! The control interval of the Motion Controller (R64, R71, R72, R74, R75): what demand is formed and in what state, what
the record says of it, and what a clamped curvature's STEER_LIMIT may do in between. -/
namespace Sys2Proof.MotionControl
open Sys2Proof.Machine Sys2Proof.Safety Sys2Proof.RideLink Sys2Proof.Standing

/-! ## The demand formed (R57, R59, R71, R72) -/

/-- R71: the demand of an interval in RUNNING: it rises by at most U, and not above Vc. -/
def riseDemand (s : State) : Nat := limitDemand s (min (permitOf s).vc (s.motion.dPrev + s.settings.riseStep))

/-- R71: the demand of an interval in STOPPING: it falls by at least W, within Vb and Vs. -/
def fallDemand (s : State) : Nat :=
  min (s.motion.dPrev - s.settings.serviceStep) (min (permitOf s).vb (permitOf s).vs)

/-- R72: the permits have dropped below D_prev by more than two service steps. -/
def Dropped (s : State) : Prop := min (permitOf s).vb (permitOf s).vs + 2 * s.settings.serviceStep < s.motion.dPrev

/-- A demand that falls is not held back by the restraint limit. -/
theorem limitDemand_of_le {s : State} {d : Nat} (h : d ≤ s.motion.dPrev) : limitDemand s d = d := by
  unfold limitDemand
  split
  · rfl
  · exact Nat.min_eq_left h

theorem releaseHold_of_ne {s : State} (h : s.motion.state ≠ .holding) (p : Permit) : releaseHold p s = s :=
  if_neg fun e => h e.1

theorem permitDrops_of_ne {s : State} (h : s.motion.state ≠ .running) (p : Permit) : Machine.permitDrops s p = false := by
  simp [Machine.permitDrops, h]

theorem formDemand_running {s : State} (hm : s.motion.state = .running) (hd : ¬ Dropped s) :
    formDemand s = (riseDemand s, stopOrHold (riseDemand s) s) := by
  have hdrop : Machine.permitDrops s (permitOf s) = false := by
    simpa [Machine.permitDrops, hm, Dropped] using hd
  simp [formDemand, releaseHold_of_ne (by rw [hm]; decide), hdrop, stateDemand, hm, riseDemand]

/-- R72: the permit drop latches PERMIT_DROP before the state is judged. -/
theorem formDemand_dropped {s : State} (hm : s.motion.state = .running) (hd : Dropped s) :
    formDemand s = (riseDemand s, stopOrHold (riseDemand s) (latch 8 s)) := by
  have hdrop : Machine.permitDrops s (permitOf s) = true := by
    simpa [Machine.permitDrops, hm, Dropped] using hd
  simp [formDemand, releaseHold_of_ne (by rw [hm]; decide), hdrop, stateDemand, hm, riseDemand]

/-- R57: a hold that is released forms its demand in RUNNING. -/
theorem formDemand_released {s : State} (hm : s.motion.state = .holding) (hv : 0 < (permitOf s).vc) :
    formDemand s = (riseDemand s, stopOrHold (riseDemand s) (enter .running s)) := by
  have hrel : releaseHold (permitOf s) s = enter .running s := if_pos ⟨hm, hv⟩
  have hdrop := permitDrops_of_ne (by rw [hm]; decide) (permitOf s)
  simp only [formDemand, hrel, hdrop]
  rfl

theorem formDemand_stopping {s : State} (hm : s.motion.state = .stopping) :
    formDemand s = (fallDemand s, stopOrHold (fallDemand s) s) := by
  have hlimit : limitDemand s (fallDemand s) = fallDemand s :=
    limitDemand_of_le ((Nat.min_le_left _ _).trans (Nat.sub_le _ _))
  have hstate : stateDemand s (permitOf s) = fallDemand s := by simp [stateDemand, hm, fallDemand]
  simp [formDemand, releaseHold_of_ne (by rw [hm]; decide), permitDrops_of_ne (by rw [hm]; decide), hstate, hlimit]

/-- R71: outside RUNNING and STOPPING the demand is 0, unless the interval releases a hold. -/
theorem formDemand_rest {s : State} (hr : s.motion.state ≠ .running) (hs : s.motion.state ≠ .stopping)
    (hh : s.motion.state = .holding → (permitOf s).vc = 0) : formDemand s = (0, stopOrHold 0 s) := by
  have hrel : releaseHold (permitOf s) s = s := if_neg fun ⟨hm, hv⟩ => by rw [hh hm] at hv; exact nomatch hv
  have hstate : stateDemand s (permitOf s) = 0 := by
    unfold stateDemand
    split
    · contradiction
    · contradiction
    all_goals rfl
  simp [formDemand, hrel, permitDrops_of_ne hr, hstate, limitDemand_of_le (Nat.zero_le _)]

theorem stopOrHold_moves {s : State} {d : Nat} (hm : s.motion.state = .running) (h : 0 < d ∨ 0 < s.speed) :
    stopOrHold d s = s := by
  simp only [stopOrHold, hm]
  exact if_neg (by omega)

theorem stopOrHold_holds {s : State} (hm : s.motion.state = .running) (h : s.speed = 0) :
    stopOrHold 0 s = enter .holding s := by simp [stopOrHold, hm, h]

theorem stopOrHold_slows {s : State} (d : Nat) (hm : s.motion.state = .stopping) (h : 0 < s.speed) :
    stopOrHold d s = s := by simp [stopOrHold, hm, Nat.ne_of_gt h]

theorem stopOrHold_stops {s : State} (d : Nat) (hm : s.motion.state = .stopping) (h : s.speed = 0) :
    stopOrHold d s = enter .stopped s := by simp [stopOrHold, hm, h]

theorem stopOrHold_estop {s : State} (d : Nat) (hm : s.motion.state = .estop) (h : 7 ≤ s.level ∨ 0 < s.speed) :
    stopOrHold d s = s := by
  simp only [stopOrHold, hm]
  exact if_neg (by omega)

/-- R59: ESTOP is left for STOPPED. -/
theorem stopOrHold_recovers {s : State} (d : Nat) (hm : s.motion.state = .estop) (hl : s.level ≤ 6) (h : s.speed = 0) :
    stopOrHold d s = enter .stopped s := by simp [stopOrHold, hm, hl, h]

/-- The vehicle rests and the interval does not change its state. -/
def Rests (s : State) : Prop :=
  s.motion.state = .start ∨ s.motion.state = .fault ∨ s.motion.state = .parked ∨ s.motion.state = .ready
    ∨ s.motion.state = .stopped ∨ (s.motion.state = .holding ∧ (permitOf s).vc = 0)
    ∨ (s.motion.state = .estop ∧ (7 ≤ s.level ∨ 0 < s.speed))

theorem formDemand_rests {s : State} (h : Rests s) : formDemand s = (0, s) := by
  have hrun : s.motion.state ≠ .running := fun e => by simp [Rests, e] at h
  have hstop : s.motion.state ≠ .stopping := fun e => by simp [Rests, e] at h
  have hhold : s.motion.state = .holding → (permitOf s).vc = 0 := fun e => by simpa [Rests, e] using h
  have hstay : stopOrHold 0 s = s := by
    rcases h with h | h | h | h | h | ⟨h, -⟩ | ⟨h, hl⟩
    case inr.inr.inr.inr.inr.inr => exact stopOrHold_estop 0 h hl
    all_goals simp [stopOrHold, h]
  rw [formDemand_rest hrun hstop hhold, hstay]

theorem Rests.brake {s : State} (h : Rests s) : s.brakeLine = true := by
  rcases h with h | h | h | h | h | ⟨h, -⟩ | ⟨h, -⟩ <;> simp [State.brakeLine, MotionState.brake, h]

/-! ## The record sent (R75) -/

theorem sendRecord_estop (d : Nat) (k : Int) {s : State} (h : s.motion.state = .estop) :
    sendRecord d k s = { s with motion := { s.motion with
      dPrev := 0, record := some { speed := 0, curvature := k, brake := s.brakeLine } } } := by simp [sendRecord, h]

theorem sendRecord_of_ne (d : Nat) (k : Int) {s : State} (h : s.motion.state ≠ .estop) :
    sendRecord d k s = { s with motion := { s.motion with
      dPrev := d, record := some { speed := d, curvature := k, brake := s.brakeLine } } } := by simp [sendRecord, h]

theorem sendRecord_zero (k : Int) (s : State) :
    sendRecord 0 k s = { s with motion := { s.motion with
      dPrev := 0, record := some { speed := 0, curvature := k, brake := s.brakeLine } } } := by simp [sendRecord]

/-- What an interval leaves: the demand as D_prev, and the record of it. -/
def Sent (d : Nat) (k : Int) (brake : Bool) (t : State) : Prop :=
  t.motion.dPrev = d ∧ t.motion.record = some { speed := d, curvature := k, brake := brake }

/-- Settling keeps what was sent. -/
theorem Sent.settle {d : Nat} {k : Int} {brake : Bool} {s : State} (h : Sent d k brake s) :
    Sent d k brake (settle s) :=
  ⟨(settle_aside s).outside.dPrev.trans h.1, (settle_aside s).outside.record.trans h.2⟩

theorem sent_estop (d : Nat) (k : Int) {s : State} (h : s.motion.state = .estop) :
    Sent 0 k true (settle (sendRecord d k s)) := by
  refine Sent.settle ?_
  rw [sendRecord_estop d k h, State.brakeLine, h]
  exact ⟨rfl, rfl⟩

theorem sent_of_ne (d : Nat) (k : Int) {s : State} (h : s.motion.state ≠ .estop) :
    Sent d k s.brakeLine (settle (sendRecord d k s)) := by
  refine Sent.settle ?_
  rw [sendRecord_of_ne d k h]
  exact ⟨rfl, rfl⟩

theorem sent_zero (k : Int) (s : State) : Sent 0 k s.brakeLine (settle (sendRecord 0 k s)) := by
  refine Sent.settle ?_
  rw [sendRecord_zero]
  exact ⟨rfl, rfl⟩

/-- Where nothing is outstanding, sending the record leaves nothing outstanding. -/
theorem settle_sendRecord_still {s : State} (h : Still s) (d : Nat) (k : Int) :
    settle (sendRecord d k s) = sendRecord d k s :=
  (still_of_eq (t := sendRecord d k s) h rfl rfl rfl rfl rfl rfl).settle

/-- Where no judgement and no entry is outstanding, sending and settling leave the motion state. -/
theorem settle_sendRecord_state {s : State} (hn : s.motion.notices = []) (hj : Judged s) (d : Nat) (k : Int) :
    (settle (sendRecord d k s)).motion.state = s.motion.state := by
  rw [settle_motion (s := sendRecord d k s) hn (hj.of_eq rfl rfl rfl)]
  rfl

/-- Side effects stay side effects when D_prev and the record are set on both sides. -/
theorem aside_recorded {s t : State} (h : Aside s t) (d : Nat) (r : Option DemandRecord) :
    Aside { s with motion := { s.motion with dPrev := d, record := r } }
      { t with motion := { t.motion with dPrev := d, record := r } } :=
  { h with outside := { h.outside with dPrev := rfl, record := rfl }, sizes := { h.sizes with } }

/-- What an interval changes beside D_prev and the record are the side effects that came before the sending, and those of
settling. -/
theorem interval_aside {s t : State} {d a : Nat} {k : Int} (h : Aside s t)
    (ha : (settle (sendRecord d k t)).motion.dPrev = a) :
    Aside { s with motion := { s.motion with dPrev := a, record := (settle (sendRecord d k t)).motion.record } }
      (settle (sendRecord d k t)) := by
  have hset := settle_aside (sendRecord d k t)
  rw [← ha, hset.outside.dPrev, hset.outside.record]
  exact (aside_recorded h _ _).trans hset

/-! ## The interval -/

/-- R74, R78: the state in which a clamped interval sends its record: STEER_LIMIT has arrived at the tallies, after the
handing on of the entry that the demand made. -/
def clampTallied (s : State) : State := tally .steerLimit 1 (atOnce s)

section
variable {s : State} (hreset : s.resetHeld = false)
include hreset

theorem exec_permitCompute : exec .permitCompute s = .next (settle (controlInterval s)) := by
  simp [exec, execPermitCompute, hreset]

theorem exec_unclamped {d : Nat} {u : State} (hf : formDemand s = (d, u)) (hc : (curvatureDemand s).2 = false) :
    exec .permitCompute s = .next (settle (sendRecord d (curvatureDemand s).1 u)) := by
  rw [exec_permitCompute hreset, controlInterval, hf]
  simp [hc]

theorem exec_clamped {d : Nat} {u : State} (hf : formDemand s = (d, u)) (hc : (curvatureDemand s).2 = true) :
    exec .permitCompute s = .next (settle (sendRecord d (curvatureDemand s).1 (clampTallied u))) := by
  rw [exec_permitCompute hreset, controlInterval, hf]
  simp [hc, clampTallied]

end

theorem exec_permitCompute_held {s : State} (h : s.resetHeld = true) : exec .permitCompute s = .next s := by
  simp [exec, execPermitCompute, h]

/-! ## A curvature clamp's STEER_LIMIT (R74) -/

theorem clampTallied_aside (s : State) : Aside s (clampTallied s) :=
  ((atOnce_calm s).trans (tally_calm _ _ _)).toAside

/-- Where no entry waits there is none to hand on first. -/
theorem clampTallied_quiet {s : State} (h : s.motion.notices = []) : clampTallied s = tally .steerLimit 1 s := by
  rw [clampTallied, atOnce_quiet h]

theorem StateKept.clampTallied {P : State → Prop} (hP : StateKept P) {s : State} (hs : P s) :
    P (clampTallied s) ∧ (clampTallied s).motion.notices = [] :=
  hP.tally _ _ (hP.atOnce hs) (atOnce_notices s)

/-- A vehicle that moves: settling leaves the state in which a clamped interval sent its record. -/
theorem MovingFrom.clamped {m : MotionState} {s : State} (hm : m.moving = true) (h : MovingFrom m s) (d : Nat) (k : Int) :
    (settle (sendRecord d k (clampTallied s))).motion.state = (clampTallied s).motion.state
      ∧ MovingFrom m (clampTallied s) := by
  obtain ⟨hmoves, hn⟩ := (movingFrom_kept hm).clampTallied h
  exact ⟨settle_sendRecord_state hn (hmoves.judged hm) d k, hmoves⟩

/-- RUNNING and STOPPING request no brake: after a clamped interval the demand stands unless ESTOP was entered. -/
theorem sent_clamped {m : MotionState} {s : State} (hm : m.moving = true) (hb : m.brake = false) (h : MovingFrom m s)
    (d : Nat) (k : Int) :
    let t := settle (sendRecord d k (clampTallied s))
    (t.motion.state ≠ .estop → Sent d k false t) ∧ (t.motion.state = .estop → Sent 0 k true t) := by
  obtain ⟨hstate, hmoves⟩ := h.clamped hm d k
  dsimp only
  rw [hstate]
  refine ⟨fun hne => ?_, fun he => sent_estop d k he⟩
  have hbrake : (clampTallied s).brakeLine = false := by
    rcases hmoves with e | e | ⟨e, -⟩
    · rw [State.brakeLine, e, hb]
    · rw [State.brakeLine, e]
      rfl
    · exact absurd e hne
  exact hbrake ▸ sent_of_ne d k hne

/-- At demand 0 the brake request sent is the brake line's. -/
theorem sent_clamped_zero {m : MotionState} {s : State} (hm : m.moving = true) (h : MovingFrom m s) (k : Int) :
    Sent 0 k (settle (sendRecord 0 k (clampTallied s))).brakeLine (settle (sendRecord 0 k (clampTallied s))) := by
  have hline : (settle (sendRecord 0 k (clampTallied s))).brakeLine = (clampTallied s).brakeLine :=
    congrArg MotionState.brake (h.clamped hm 0 k).1
  rw [hline]
  exact sent_zero k _

end Sys2Proof.MotionControl
end

section
/-! The control interval state by state: what RUNNING, HOLDING, STOPPING and rest make of it (R57, R59, R64, R71 to R75). -/
namespace Sys2Proof.MotionControl
open Sys2Proof.Machine Sys2Proof.Safety Sys2Proof.RideLink Sys2Proof.Standing

/-! ## The demand and the state that the interval enters -/

section
variable {s : State}

theorem formDemand_moves (hm : s.motion.state = .running) (hd : ¬ Dropped s) (h : 0 < riseDemand s ∨ 0 < s.speed) :
    formDemand s = (riseDemand s, s) := by
  rw [formDemand_running hm hd, stopOrHold_moves hm h]

theorem formDemand_holds (hm : s.motion.state = .running) (hd : ¬ Dropped s) (h0 : riseDemand s = 0) (hv : s.speed = 0) :
    formDemand s = (0, enter .holding s) := by
  rw [formDemand_running hm hd, h0, stopOrHold_holds hm hv]

theorem formDemand_leavesHold (hm : s.motion.state = .holding) (hp : 0 < (permitOf s).vc)
    (h : 0 < riseDemand s ∨ 0 < s.speed) : formDemand s = (riseDemand s, enter .running s) := by
  rw [formDemand_released hm hp, stopOrHold_moves (s := enter .running s) rfl h]

theorem formDemand_holdsAgain (hm : s.motion.state = .holding) (hp : 0 < (permitOf s).vc) (h0 : riseDemand s = 0)
    (hv : s.speed = 0) : formDemand s = (0, enter .holding (enter .running s)) := by
  rw [formDemand_released hm hp, h0, stopOrHold_holds (s := enter .running s) rfl hv]

theorem formDemand_slows (hm : s.motion.state = .stopping) (hv : 0 < s.speed) : formDemand s = (fallDemand s, s) := by
  rw [formDemand_stopping hm, stopOrHold_slows _ hm hv]

theorem formDemand_stops (hm : s.motion.state = .stopping) (hv : s.speed = 0) :
    formDemand s = (fallDemand s, enter .stopped s) := by
  rw [formDemand_stopping hm, stopOrHold_stops _ hm hv]

theorem formDemand_recovers (hm : s.motion.state = .estop) (hl : s.level ≤ 6) (hv : s.speed = 0) :
    formDemand s = (0, enter .stopped s) := by
  rw [formDemand_rest (by rw [hm]; decide) (by rw [hm]; decide) (fun e => nomatch hm.symm.trans e),
    stopOrHold_recovers _ hm hl hv]

end

theorem enter_aside (st : MotionState) (s : State) :
    Aside { s with motion := { s.motion with state := st } } (enter st s) :=
  aside_waiting { s with motion := { s.motion with state := st } } _

/-- A hold that is released and entered again in one interval (log 24). -/
theorem holdsAgain_aside {s : State} (hm : s.motion.state = .holding) :
    Aside s (enter .holding (enter .running s)) := by
  have hs : { s with motion := { s.motion with state := .holding } } = s := by rw [← hm]
  exact hs ▸ aside_waiting { s with motion := { s.motion with state := .holding } } _

/-! ## The interval in one state -/

section
variable {s r u : State} {d : Nat} (hreset : s.resetHeld = false) (hf : formDemand s = (d, u))
include hreset hf

/-- Nothing outstanding and no change of state: the next state is exact. -/
theorem interval_exact (hc : (curvatureDemand s).2 = false) (hu : Still u) :
    exec .permitCompute s = .next (sendRecord d (curvatureDemand s).1 u) := by
  rw [exec_unclamped hreset hf hc, settle_sendRecord_still hu]

theorem interval_unclamped (hc : (curvatureDemand s).2 = false) (hne : u.motion.state ≠ .estop) (ha : Aside r u) :
    ∃ t, exec .permitCompute s = .next t ∧ t = settle (sendRecord d (curvatureDemand s).1 u)
      ∧ Sent d (curvatureDemand s).1 u.brakeLine t
      ∧ Aside { r with motion := { r.motion with dPrev := d, record := t.motion.record } } t :=
  have hsent := sent_of_ne d (curvatureDemand s).1 hne
  ⟨_, exec_unclamped hreset hf hc, rfl, hsent, interval_aside ha hsent.1⟩

/-- R74: a clamp's STEER_LIMIT comes before the record is sent. -/
theorem interval_clamped (hc : (curvatureDemand s).2 = true) (ha : Aside r u) :
    ∃ t, exec .permitCompute s = .next t ∧ t = settle (sendRecord d (curvatureDemand s).1 (clampTallied u))
      ∧ Aside { r with motion := { r.motion with dPrev := t.motion.dPrev, record := t.motion.record } } t :=
  ⟨_, exec_clamped hreset hf hc, rfl, interval_aside (ha.trans (clampTallied_aside u)) rfl⟩

end

/-- R74: at demand 0 a clamped interval's D_prev is 0 in every state. -/
theorem interval_clamped_zero {s r u : State} (hreset : s.resetHeld = false) (hf : formDemand s = (0, u))
    (hc : (curvatureDemand s).2 = true) (ha : Aside r u) :
    ∃ t, exec .permitCompute s = .next t ∧ t = settle (sendRecord 0 (curvatureDemand s).1 (clampTallied u))
      ∧ Sent 0 (curvatureDemand s).1 (clampTallied u).brakeLine t
      ∧ Aside { r with motion := { r.motion with dPrev := 0, record := t.motion.record } } t :=
  have hsent := sent_zero (curvatureDemand s).1 (clampTallied u)
  ⟨_, exec_clamped hreset hf hc, rfl, hsent, interval_aside (ha.trans (clampTallied_aside u)) hsent.1⟩

/-! ## RUNNING and HOLDING -/

/-- Settles O41: in each case the demand formed and the state entered decide the record; after a clamp the level alone may
have changed the state (`MovingFrom`), and the record was sent in the state that settling leaves. -/
theorem runningDemand : Obligations.RunningDemand := by
  refine ⟨fun s hreset hs => ⟨fun hc => ⟨fun hm hd hmove => ?_, fun hm hd h0 hv => ?_, fun hm hp hmove => ?_,
      fun hm hp h0 hv => ?_⟩, fun hc => ⟨fun hm hd hmove => ?_, fun hm hd h0 hv => ?_, fun hm hp hmove => ?_,
      fun hm hp h0 hv => ?_⟩⟩,
    fun s => ⟨curvatureDemand_none, fun k => curvatureDemand_some⟩,
    fun d k s => ⟨sendRecord_estop d k, sendRecord_of_ne d k⟩⟩
  · rw [interval_exact hreset (formDemand_moves hm (Nat.not_lt.mpr hd) hmove) hc hs,
      sendRecord_of_ne _ _ (by rw [hm]; decide), State.brakeLine, hm]
    rfl
  · obtain ⟨t, he, -, ⟨hprev, hrec⟩, ha⟩ := interval_unclamped hreset
      (formDemand_holds hm (Nat.not_lt.mpr hd) h0 hv) hc nofun (enter_aside .holding s)
    exact ⟨t, he, hprev, hrec, ha⟩
  · obtain ⟨t, he, -, ⟨hprev, hrec⟩, ha⟩ := interval_unclamped hreset (formDemand_leavesHold hm hp hmove) hc nofun
      (enter_aside .running s)
    exact ⟨t, he, hprev, hrec, ha⟩
  · obtain ⟨t, he, ht, ⟨hprev, hrec⟩, ha⟩ := interval_unclamped hreset (formDemand_holdsAgain hm hp h0 hv) hc nofun
      (holdsAgain_aside hm)
    exact ⟨t, he, ht, hprev, hrec, ha⟩
  · obtain ⟨t, he, ht, ha⟩ := interval_clamped hreset (formDemand_moves hm (Nat.not_lt.mpr hd) hmove) hc (Aside.refl s)
    obtain ⟨hstands, hestop⟩ := ht ▸ sent_clamped (s := s) (m := .running) rfl rfl (.inl hm) _ _
    exact ⟨t, he, clampTallied_quiet hs.notices ▸ ht, hstands, hestop, ha⟩
  · obtain ⟨t, he, ht, -, ha⟩ := interval_clamped_zero hreset (formDemand_holds hm (Nat.not_lt.mpr hd) h0 hv) hc
      (enter_aside .holding s)
    obtain ⟨hprev, hrec⟩ := ht ▸ sent_clamped_zero (s := enter .holding s) (m := .holding) rfl (.inl rfl) _
    exact ⟨t, he, ht, hprev, hrec, ha⟩
  · obtain ⟨t, he, ht, ha⟩ := interval_clamped hreset (formDemand_leavesHold hm hp hmove) hc (enter_aside .running s)
    obtain ⟨hstands, -⟩ := ht ▸ sent_clamped (s := enter .running s) (m := .running) rfl rfl (.inl rfl) _ _
    exact ⟨t, he, ht, hstands, ha⟩
  · obtain ⟨t, he, ht, -, ha⟩ := interval_clamped_zero hreset (formDemand_holdsAgain hm hp h0 hv) hc
      (holdsAgain_aside hm)
    obtain ⟨hprev, hrec⟩ := ht ▸ sent_clamped_zero (s := enter .holding (enter .running s)) (m := .holding) rfl
      (.inl rfl) _
    exact ⟨t, he, ht, hprev, hrec, ha⟩

/-! ## STOPPING and rest -/

/-- R59: the interval that enters STOPPED, with a clamp, sends the demand formed, or 0 where the level put the vehicle into
ESTOP; the brake is requested in both. -/
theorem sent_stopped_clamped (d : Nat) (k : Int) (s : State) :
    Sent d k true (settle (sendRecord d k (clampTallied (enter .stopped s))))
      ∨ Sent 0 k true (settle (sendRecord d k (clampTallied (enter .stopped s)))) := by
  obtain ⟨hhalted, -⟩ := halted_kept.clampTallied (s := enter .stopped s) (.inl rfl)
  rcases hhalted with h | h
  · have hbrake : (clampTallied (enter .stopped s)).brakeLine = true := Halted.brake (.inl h)
    exact .inl (hbrake ▸ sent_of_ne d k (by rw [h]; decide))
  · exact .inr (sent_estop d k h)

/-- Settles O42: STOPPING and rest as O41's cases; STOPPED entered is left by the level for ESTOP alone, which also requests
the brake (`Halted`). -/
theorem stoppingAndRestDemand : Obligations.StoppingAndRestDemand := by
  refine ⟨fun s hreset hs hm => ⟨fun hc hv => ?_, fun hc hv => ?_, fun hc hv => ?_, fun hc hv => ?_⟩,
    fun s hreset hs => ⟨fun hrest hc => ?_, fun hm hl hv hc => ?_, fun hrest hc => ?_, fun hm hl hv hc => ?_⟩,
    fun s => exec_permitCompute_held⟩
  · rw [interval_exact hreset (formDemand_slows hm hv) hc hs, sendRecord_of_ne _ _ (by rw [hm]; decide),
      State.brakeLine, hm]
    rfl
  · obtain ⟨t, he, -, ⟨hprev, hrec⟩, ha⟩ := interval_unclamped hreset (formDemand_stops hm hv) hc nofun
      (enter_aside .stopped s)
    exact ⟨t, he, hprev, hrec, ha⟩
  · obtain ⟨t, he, ht, ha⟩ := interval_clamped hreset (formDemand_slows hm hv) hc (Aside.refl s)
    obtain ⟨hstands, hestop⟩ := ht ▸ sent_clamped (s := s) (m := .stopping) rfl rfl (.inl hm) _ _
    exact ⟨t, he, clampTallied_quiet hs.notices ▸ ht, hstands, hestop, ha⟩
  · obtain ⟨t, he, ht, ha⟩ := interval_clamped hreset (formDemand_stops hm hv) hc (enter_aside .stopped s)
    have hsent := ht ▸ sent_stopped_clamped (fallDemand s) (curvatureDemand s).1 s
    exact ⟨t, he, ht, hsent.imp And.symm And.symm, ha⟩
  · have hrests : Rests s := hrest
    rw [interval_exact hreset (formDemand_rests hrests) hc hs, sendRecord_zero, hrests.brake]
  · obtain ⟨t, he, -, ⟨hprev, hrec⟩, ha⟩ := interval_unclamped hreset (formDemand_recovers hm hl hv) hc nofun
      (enter_aside .stopped s)
    exact ⟨t, he, hprev, hrec, ha⟩
  · obtain ⟨t, he, ht, ⟨hprev, hrec⟩, ha⟩ := interval_clamped_zero hreset (formDemand_rests hrest) hc (Aside.refl s)
    exact ⟨t, he, clampTallied_quiet hs.notices ▸ ht, hprev, ⟨_, hrec⟩, ha⟩
  · obtain ⟨t, he, ht, -, ha⟩ := interval_clamped_zero hreset (formDemand_recovers hm hl hv) hc (enter_aside .stopped s)
    obtain ⟨hprev, hrec⟩ := ht ▸ (sent_stopped_clamped 0 (curvatureDemand s).1 s).elim id id
    exact ⟨t, he, ht, hprev, hrec, ha⟩

/-! ## The permit drop (R72) -/

/-- Side effects that end in ESTOP are side effects of having entered it. -/
theorem aside_estop {s t : State} (h : Aside s t) (ht : t.motion.state = .estop) :
    Aside { s with motion := { s.motion with state := .estop } } t where
  outside := { h.outside with }
  grows := h.grows
  sizes := { h.sizes with }
  start := by simp [ht]
  fault := by simp [ht]
  estop := fun _ _ => ht
  stopping := nofun
  moving := by simp [ht]

/-- R58: a level of 7 stands in START, FAULT and ESTOP alone. -/
theorem estop_of_stands {level : Nat} {st : MotionState} (h : Stands level st) (hl : 7 ≤ level) (hs : st ≠ .start)
    (hf : st ≠ .fault) : st = .estop := by
  cases st with
  | start => exact absurd rfl hs
  | fault => exact absurd rfl hf
  | estop => rfl
  | parked | ready | running | holding | stopping | stopped =>
    simp only [Stands] at h
    omega

/-- R58, R72: PERMIT_DROP puts a vehicle that runs into ESTOP. -/
theorem latch_permitDrop {s : State} (hm : s.motion.state = .running) (hl : LevelOk s) (ht : TablesOk s) :
    Latched (latch 8 s) 8 ∧ 7 ≤ (latch 8 s).level ∧ (latch 8 s).motion.state = .estop := by
  have hcalm := latch_calm 8 s
  have haside := hcalm.toAside
  have hlatched : Latched (latch 8 s) 8 := latch_latched 8 s (by decide) (by rw [ht.records]; decide)
  have hlevel : 7 ≤ (latch 8 s).level := level_le_of_latched ht rfl haside hlatched
  have hstands := (hcalm.levelOk (latch_handed 8 s) hl).stands
  exact ⟨hlatched, hlevel, estop_of_stands hstands hlevel (fun e => nomatch hm.symm.trans (haside.start.mp e))
    (fun e => nomatch hm.symm.trans (haside.fault.mp e))⟩

/-- With PERMIT_DROP latched at level 7, ESTOP stands through the rest of the interval. -/
theorem estop_stands {r u : State} (hlatched : Latched u 8) (hl : 7 ≤ u.level) (hm : u.motion.state = .estop)
    (ha : Aside r u) (d : Nat) (k : Int) :
    let t := settle (sendRecord d k u)
    Latched t 8 ∧ 7 ≤ t.level ∧ t.motion.state = .estop ∧ t.brakeLine = true ∧ t.motion.dPrev = 0
      ∧ t.motion.record = some { speed := 0, curvature := k, brake := true }
      ∧ Aside { r with motion := { r.motion with state := .estop, dPrev := 0, record := t.motion.record } } t := by
  obtain ⟨hprev, hrec⟩ := sent_estop d k hm
  have hset := settle_aside (sendRecord d k u)
  have hstate : (settle (sendRecord d k u)).motion.state = .estop := hset.estop hm hl
  have hsent : Latched (sendRecord d k u) 8 := hlatched
  exact ⟨hsent.aside hset, hl.trans hset.level, hstate, by rw [State.brakeLine, hstate]; rfl, hprev, hrec,
    interval_aside (aside_estop ha hm) hprev⟩

/-- Settles O43: PERMIT_DROP is fixed at level 7, so the vehicle is in ESTOP before the record is sent, and neither the
clamp's STEER_LIMIT nor settling takes it out. -/
theorem permitDrops : Obligations.PermitDrops := by
  intro s hreset hm hl ht hd
  obtain ⟨hlatched, hlevel, hstate⟩ := latch_permitDrop hm hl ht
  have haside := (latch_calm 8 s).toAside
  have hform : formDemand s = (riseDemand s, latch 8 s) := by
    rw [formDemand_dropped hm hd, stopOrHold_estop _ hstate (.inl hlevel)]
  cases hc : (curvatureDemand s).2 with
  | false => exact ⟨_, exec_unclamped hreset hform hc, estop_stands hlatched hlevel hstate haside _ _⟩
  | true =>
    have hclamp := clampTallied_aside (latch 8 s)
    exact ⟨_, exec_clamped hreset hform hc, estop_stands (hlatched.aside hclamp) (hlevel.trans hclamp.level)
      (hclamp.estop hstate hlevel) (haside.trans hclamp) _ _⟩

end Sys2Proof.MotionControl
end

section
/-! The lists of the Zone Claim Unit: path order (R80), the four steps of a position change (R82 to R87) and the judgement
of one entry (R91 to R93), each with what it says of the entries. -/
namespace Sys2Proof.ZoneClaims
open Sys2Proof.Machine Sys2Proof.Safety

/-! ## Path order (R80) -/

theorem insertByKey_perm {α : Type} (key : α → Nat) (x : α) (ys : List α) : (insertByKey key x ys).Perm (x :: ys) := by
  induction ys with
  | nil => exact .refl _
  | cons y ys ih =>
    rw [insertByKey]
    split
    · exact .refl _
    · exact (ih.cons y).trans (.swap x y ys)

theorem insertByKey_rising {α : Type} (key : α → Nat) (x : α) {ys : List α}
    (h : ys.Pairwise fun a b => key a ≤ key b) : (insertByKey key x ys).Pairwise fun a b => key a ≤ key b := by
  induction ys with
  | nil => exact List.pairwise_singleton _ x
  | cons y ys ih =>
    obtain ⟨hy, hys⟩ := List.pairwise_cons.mp h
    rw [insertByKey]
    split
    · rename_i hlt
      refine List.pairwise_cons.mpr ⟨fun z hz => ?_, h⟩
      rcases List.mem_cons.mp hz with rfl | hz
      · exact Nat.le_of_lt hlt
      · exact Nat.le_trans (Nat.le_of_lt hlt) (hy z hz)
    · rename_i hle
      refine List.pairwise_cons.mpr ⟨fun z hz => ?_, ih hys⟩
      rcases List.mem_cons.mp ((insertByKey_perm key x ys).subset hz) with rfl | hz
      · exact Nat.not_lt.mp hle
      · exact hy z hz

/-- A list put in order by a key holds the same elements, by rising key. -/
theorem sortByKey_perm_rising {α : Type} (key : α → Nat) (xs : List α) :
    (sortByKey key xs).Perm xs ∧ (sortByKey key xs).Pairwise fun a b => key a ≤ key b := by
  have insertAll : ∀ (xs acc : List α), acc.Pairwise (fun a b => key a ≤ key b) →
      (xs.foldl (fun acc x => insertByKey key x acc) acc).Perm (xs ++ acc)
        ∧ (xs.foldl (fun acc x => insertByKey key x acc) acc).Pairwise fun a b => key a ≤ key b := by
    intro xs
    induction xs with
    | nil => exact fun acc h => ⟨.refl _, h⟩
    | cons x xs ih =>
      intro acc h
      obtain ⟨hperm, hrising⟩ := ih _ (insertByKey_rising key x h)
      exact ⟨hperm.trans (((insertByKey_perm key x acc).append_left xs).trans List.perm_middle), hrising⟩
  obtain ⟨hperm, hrising⟩ := insertAll xs [] .nil
  exact ⟨by rwa [List.append_nil] at hperm, hrising⟩

theorem pathOrder_perm (r : Route) (tail : Nat) (cs : List Claim) : (pathOrder r tail cs).Perm cs :=
  (sortByKey_perm_rising _ cs).1

theorem pathOrder_rising (r : Route) (tail : Nat) (cs : List Claim) :
    (pathOrder r tail cs).Pairwise fun a b => claimKey r tail a ≤ claimKey r tail b :=
  (sortByKey_perm_rising _ cs).2

/-- R80: the first entry in path order has the least distance from the tail. -/
theorem pathOrder_head {r : Route} {tail : Nat} {cs ds : List Claim} {d : Claim} (h : pathOrder r tail cs = d :: ds) :
    d ∈ cs ∧ ∀ c ∈ cs, claimKey r tail d ≤ claimKey r tail c := by
  have hperm : (d :: ds).Perm cs := h ▸ pathOrder_perm r tail cs
  have hrising := h ▸ pathOrder_rising r tail cs
  refine ⟨hperm.subset List.mem_cons_self, fun c hc => ?_⟩
  rcases List.mem_cons.mp (hperm.symm.subset hc) with rfl | hc
  · exact Nat.le_refl _
  · exact (List.pairwise_cons.mp hrising).1 c hc

/-! ## Release and withdrawal (R82, R83) -/

theorem releasedBy_iff {r : Route} {body : Nat} {span : Option (Nat × Nat)} {c : Claim} :
    releasedBy r body span c = true ↔ ∃ p f e, span = some (p, f) ∧ r.zoneEnd c.zone = some e
      ∧ spanHas r.loop ((p + (r.loop - (1000 * body) % r.loop)) % r.loop) f (1000 * e) = true := by
  unfold releasedBy
  cases span with
  | none => simp
  | some pf =>
    obtain ⟨p, f⟩ := pf
    cases r.zoneEnd c.zone <;> simp

theorem mem_releaseStep_kept {r : Route} {body : Nat} {span : Option (Nat × Nat)} {cs : List Claim} {c : Claim} :
    c ∈ (releaseStep r body span cs).1 ↔ c ∈ cs ∧ ¬ releasedBy r body span c = true := by
  simp [releaseStep]

/-- R82: what is released is what is not kept. -/
theorem mem_releaseStep_released {r : Route} {body : Nat} {span : Option (Nat × Nat)} {cs : List Claim} {z : Nat} :
    z ∈ (releaseStep r body span cs).2 ↔ ∃ d ∈ cs, d.zone = z ∧ d ∉ (releaseStep r body span cs).1 := by
  have hout : z ∈ (releaseStep r body span cs).2 ↔ ∃ d ∈ cs.filter (releasedBy r body span), d.zone = z := by
    unfold releaseStep
    rw [List.mem_map]
    exact exists_congr fun d => and_congr_left fun _ => (pathOrder_perm _ _ _).mem_iff
  rw [hout]
  refine exists_congr fun d => ?_
  rw [List.mem_filter, mem_releaseStep_kept, and_assoc]
  refine and_congr_right fun hd => ?_
  rw [and_comm]
  exact and_congr_right fun _ => ⟨fun h k => k.2 h, fun h => by_contra fun k => h ⟨hd, k⟩⟩

theorem mem_withdrawStep {r : Route} {body front : Nat} {cs : List Claim} {c : Claim} :
    c ∈ withdrawStep r body front cs
      ↔ c ∈ cs ∧ (r.occupied body front c.zone = true ∨ ∃ d, r.nextEntry front = some (c.zone, d)) := by
  have hnext : ((r.nextEntry front).any fun e => decide (e.1 = c.zone)) = true
      ↔ ∃ d, r.nextEntry front = some (c.zone, d) := by
    cases r.nextEntry front with
    | none => simp
    | some e => simp [Prod.ext_iff]
  rw [withdrawStep, List.mem_filter, Bool.or_eq_true, hnext]

/-! ## Entry (R84, R85) -/

theorem claimOf_eq_none_iff {cs : List Claim} {z : Nat} : claimOf cs z = none ↔ ∀ c ∈ cs, c.zone ≠ z := by
  simp [claimOf]

theorem entryList_held {cs : List Claim} {z : Nat} {c : Claim} (h : claimOf cs z = some c) (hs : c.stage = .held)
    (r : Route) (tail frontZone : Nat) : entryList r tail frontZone cs z
      = cs.map fun q => if q.zone = z then { q with mark := false } else q := by
  simp [entryList, h, hs]

theorem entryList_intent {cs : List Claim} {z : Nat} {c : Claim} (h : claimOf cs z = some c) (hs : c.stage = .intent)
    (r : Route) (tail frontZone : Nat) : entryList r tail frontZone cs z
      = cs.map fun q => if q.zone = z then { q with stage := .held, since := none, mark := false } else q := by
  simp [entryList, h, hs]

theorem entryList_forced {cs : List Claim} {z : Nat} (h : claimOf cs z = none) (r : Route) (tail frontZone : Nat) :
    entryList r tail frontZone cs z
      = (makeRoom r tail frontZone cs).1 ++ [{ zone := z, stage := .held, since := none, mark := false }] := by
  simp [entryList, h]

theorem makeRoom_short {cs : List Claim} (h : cs.length < 2) (r : Route) (tail frontZone : Nat) :
    makeRoom r tail frontZone cs = (cs, []) := if_neg (Nat.not_le.mpr h)

/-- R85: a full list with an entry other than the front's drops the first of those in path order. -/
theorem makeRoom_full {cs : List Claim} {frontZone : Nat} (h : 2 ≤ cs.length) (hc : ∃ c ∈ cs, c.zone ≠ frontZone)
    (r : Route) (tail : Nat) :
    ∃ d ∈ cs, d.zone ≠ frontZone ∧ (∀ c ∈ cs, c.zone ≠ frontZone → claimKey r tail d ≤ claimKey r tail c)
      ∧ makeRoom r tail frontZone cs = (cs.filter (fun c => c.zone ≠ d.zone), [d.zone]) := by
  have hroom : makeRoom r tail frontZone cs = dropFirst r tail frontZone cs := if_pos h
  have hother : ∀ c, c ∈ cs.filter (fun c => c.zone != frontZone) ↔ c ∈ cs ∧ c.zone ≠ frontZone := by simp
  rw [hroom]
  unfold dropFirst
  cases hp : pathOrder r tail (cs.filter fun c => c.zone != frontZone) with
  | nil =>
    obtain ⟨c, hmem, hne⟩ := hc
    have hnil := (pathOrder_perm r tail _).mem_iff.mpr ((hother c).mpr ⟨hmem, hne⟩)
    rw [hp] at hnil
    exact absurd hnil List.not_mem_nil
  | cons d ds =>
    obtain ⟨hd, hleast⟩ := pathOrder_head hp
    obtain ⟨hmem, hne⟩ := (hother d).mp hd
    refine ⟨d, hmem, hne, fun c hc hcne => hleast c ((hother c).mpr ⟨hc, hcne⟩), ?_⟩
    have hfilter : cs.filter (fun c => c.zone != d.zone) = cs.filter (fun c => c.zone ≠ d.zone) :=
      List.filter_congr fun c _ => by rw [Bool.eq_iff_iff, bne_iff_ne, decide_eq_true_iff]
    exact congrArg (·, [d.zone]) hfilter

/-- A zone that is HELD already is no forced entry. -/
theorem enterZone_held {r : Route} {s : State} {z : Nat} {c : Claim} (h : claimOf s.claims z = some c)
    (hs : c.stage = .held) : enterZone r s z
      = { s with claims := entryList r (r.tailOf s.settings.bodyLength s.front) (r.zoneAt s.front) s.claims z } := by
  simp [enterZone, h, hs]

/-- R85: the forced entry of a zone in INTENT. -/
theorem enterZone_intent {r : Route} {s : State} {z : Nat} {c : Claim} (h : claimOf s.claims z = some c)
    (hs : c.stage = .intent) : enterZone r s z = latch 13
      { s with claims := entryList r (r.tailOf s.settings.bodyLength s.front) (r.zoneAt s.front) s.claims z } := by
  simp [enterZone, h, hs]

/-- R85: the forced entry of a zone without an entry, after the release of what is dropped for it. -/
theorem enterZone_forced {r : Route} {s : State} {z : Nat} (h : claimOf s.claims z = none) :
    let tail := r.tailOf s.settings.bodyLength s.front
    let room := makeRoom r tail (r.zoneAt s.front) s.claims
    enterZone r s z = latch 13 { (room.2.foldl zoneLeave { s with claims := room.1 }) with
      claims := entryList r tail (r.zoneAt s.front) s.claims z } := by
  simp [enterZone, h]

/-! ## Intent placement (R87) -/

theorem placeIntent_none {r : Route} {front : Nat} (h : r.nextEntry front = none) (distance now : Nat) (cs : List Claim) :
    placeIntent r distance now front cs = cs := by
  simp [placeIntent, h]

theorem placeIntent_stays {r : Route} {distance front z d : Nat} {cs : List Claim} (h : r.nextEntry front = some (z, d))
    (hn : (∃ c ∈ cs, c.zone = z) ∨ distance < d ∨ 2 ≤ cs.length) (now : Nat) :
    placeIntent r distance now front cs = cs := by
  simp only [placeIntent, h]
  refine if_pos ?_
  simp only [Bool.or_eq_true, List.any_eq_true, decide_eq_true_eq, or_assoc]
  exact hn

theorem placeIntent_placed {r : Route} {distance front z d : Nat} {cs : List Claim} (h : r.nextEntry front = some (z, d))
    (hz : ∀ c ∈ cs, c.zone ≠ z) (hd : d ≤ distance) (hl : cs.length < 2) (now : Nat) :
    placeIntent r distance now front cs = cs ++ [{ zone := z, stage := .intent, since := some now, mark := false }] := by
  simp only [placeIntent, h]
  refine if_neg ?_
  simp only [Bool.or_eq_true, List.any_eq_true, decide_eq_true_eq, not_or, not_exists, not_and]
  exact ⟨⟨hz, Nat.not_lt.mpr hd⟩, Nat.not_le.mpr hl⟩

/-! ## The judgement of one entry (R91 to R93) -/

section
variable {r : Route} {s : State} {c : Claim}

/-- R91: promotion. -/
theorem judgeClaim_promoted (hs : c.stage = .intent) (hage : s.settings.settleTime ≤ s.now - c.since.getD s.now)
    (hroom : heldCount s c.zone + intentCount s r c.zone < r.capacity c.zone) (hl : s.level ≤ 4) :
    judgeClaim r s c = ({ c with stage := .held, since := none }, []) := by
  simp [judgeClaim, hs, hage, hroom, hl]

theorem judgeClaim_waits (hs : c.stage = .intent) (h : s.now - c.since.getD s.now < s.settings.settleTime
      ∨ r.capacity c.zone ≤ heldCount s c.zone + intentCount s r c.zone ∨ 5 ≤ s.level) :
    judgeClaim r s c = (c, []) := by
  simp only [judgeClaim, hs]
  refine if_neg ?_
  simp only [Bool.and_eq_true, decide_eq_true_eq]
  omega

/-- R92: the zone that the vehicle occupies is not judged. -/
theorem judgeClaim_occupied (hs : c.stage = .held) (h : r.occupied s.settings.bodyLength s.front c.zone = true) :
    judgeClaim r s c = (c, []) := by
  simp [judgeClaim, hs, h]

section
variable (hs : c.stage = .held) (ho : r.occupied s.settings.bodyLength s.front c.zone = false)
include hs ho

theorem judgeClaim_room (h : heldPrecedingCount s r c.zone < r.capacity c.zone) :
    judgeClaim r s c = ({ c with mark := false }, []) := by
  simp [judgeClaim, hs, ho, h]

section
variable {e : Nat} (hf : r.capacity c.zone ≤ heldPrecedingCount s r c.zone) (he : r.entry c.zone = some e)
include hf he

/-- R92: a zone whose capacity the preceding holders fill is yielded where the part still stops short of it. -/
theorem judgeClaim_yields (hv : s.speed ≤ yieldSpeed s.settings.decel s.settings.margin (ahead r.len s.front e)) :
    judgeClaim r s c = ({ c with stage := .intent, since := some s.now, mark := false }, [.tally .zoneYield]) := by
  simp [judgeClaim, hs, ho, Nat.not_lt.mpr hf, he, hv]

/-- R93: a yield that the speed forbids is a conflict, which is latched where the entry does not show it yet. -/
theorem judgeClaim_conflict (hv : yieldSpeed s.settings.decel s.settings.margin (ahead r.len s.front e) < s.speed) :
    judgeClaim r s c = if c.mark then (c, []) else ({ c with mark := true }, [.latch 13]) := by
  simp [judgeClaim, hs, ho, Nat.not_lt.mpr hf, he, Nat.not_le.mpr hv]

end

end

end

end Sys2Proof.ZoneClaims
end

section
/-! The commands of the Zone Claim Unit: CLAIM_INTERVAL_EVALUATION (R88), and STOP with its two scopes (R95). -/
namespace Sys2Proof.ZoneClaims
open Sys2Proof.Machine Sys2Proof.Safety Sys2Proof.RideLink Sys2Proof.MotionControl

/-! ## The evaluation (R88) -/

theorem exec_claimIntervalEvaluation_none {s : State} (h : ∀ c ∈ s.claims, c.stage = .held) (hs : Still s) :
    exec .claimIntervalEvaluation s = .next s := by
  have hgate : (!s.loading && s.claims.any fun c => decide (c.stage = .intent)) = false := by
    rw [List.any_eq_false.mpr fun c hc => by simp [h c hc], Bool.and_false]
  show Host.Outcome.next (settle (if _ then _ else s)) = _
  rw [hgate]
  exact congrArg Host.Outcome.next hs.settle

theorem exec_claimIntervalEvaluation {s : State} (hl : s.loading = false) (h : ∃ c ∈ s.claims, c.stage = .intent) :
    exec .claimIntervalEvaluation s = .next (settle (evaluateClaims s)) := by
  obtain ⟨c, hc, hs⟩ := h
  have hgate : (!s.loading && s.claims.any fun c => decide (c.stage = .intent)) = true := by
    rw [hl, List.any_eq_true.mpr ⟨c, hc, decide_eq_true hs⟩]
    rfl
  show Host.Outcome.next (settle (if _ then _ else s)) = _
  rw [if_pos hgate]

/-- R88: every entry is judged against the state before the evaluation; the reports are taken in list order. -/
theorem evaluateClaims_placed {s : State} {r : Route} {x : Nat} (h : s.placed = some (r, x)) : evaluateClaims s
    = reportAll (s.claims.flatMap fun c => (judgeClaim r s c).2)
        { s with claims := s.claims.map fun c => (judgeClaim r s c).1 } := by
  simp only [evaluateClaims, h, List.map_map, List.flatMap_map]
  rfl

/-- Settles O45: the evaluation by the judgement of one entry, and the steps of a position change one by one. -/
theorem claimsEvaluated : Obligations.ClaimsEvaluated := by
  refine ⟨fun s hl => ⟨exec_claimIntervalEvaluation_none, fun r x hp hi => ?_⟩,
    fun r tail cs => ⟨pathOrder_perm r tail cs, pathOrder_rising r tail cs⟩, fun r body front span cs c => ?_,
    fun r tail frontZone z cs => ?_, fun r s z => ⟨fun _ => enterZone_held, fun _ => enterZone_intent, enterZone_forced⟩,
    fun r distance now front cs => ⟨fun _ _ h hz hd hc => placeIntent_placed h hz hd hc now,
      fun _ _ h hn => placeIntent_stays h hn now, fun h => placeIntent_none h distance now cs⟩⟩
  · have hset := settle_aside (evaluateClaims s)
    have hclaims : (settle (evaluateClaims s)).claims = s.claims.map fun c => (judgeClaim r s c).1 := by
      rw [hset.outside.claims, evaluateClaims_claims hp, List.map_map]
      rfl
    refine ⟨settle (evaluateClaims s), exec_claimIntervalEvaluation hl hi, hclaims, by rw [evaluateClaims_placed hp],
      fun c _ hs => ⟨judgeClaim_promoted hs, judgeClaim_waits hs⟩, fun c _ hs => judgeClaim_occupied hs,
      fun c _ hs ho => ⟨judgeClaim_room hs ho, fun e hfull he => ?_⟩, ?_⟩
    · have hconflict := judgeClaim_conflict hs ho hfull he
      exact ⟨judgeClaim_yields hs ho hfull he,
        fun hv hm => (hconflict hv).trans (if_neg (Bool.eq_false_iff.mp hm)), fun hv hm => (hconflict hv).trans (if_pos hm)⟩
    · rw [hset.outside.claims]
      exact (evaluateClaims_calm s).toAside.trans hset
  · exact ⟨mem_releaseStep_kept.trans (and_congr_right fun _ => not_congr releasedBy_iff),
      fun z => mem_releaseStep_released, mem_withdrawStep⟩
  · refine ⟨fun c h hs => entryList_held h hs r tail frontZone, fun c h hs => entryList_intent h hs r tail frontZone,
      fun h hl => ?_, fun h hl hc => ?_⟩
    · rw [entryList_forced h, makeRoom_short hl]
    · obtain ⟨d, hd, hne, hleast, hroom⟩ := makeRoom_full hl hc r tail
      exact ⟨d, hd, hne, hleast, hroom, by rw [entryList_forced h, hroom]⟩

/-! ## STOP (R95) -/

theorem exec_stopRide {s : State} {source : Nat} (h : Accepted s .stop source 0) :
    exec (.stopRide source) s = .next (settle (latch 11 (received s))) := by
  rw [exec_commandHeader rfl, commandRow_accepted h]
  rfl

theorem exec_stopZone {s : State} {source : Nat} (h : Accepted s .stop source 0) (zone : Nat) :
    exec (.stopZone source zone) s = .next (settle (ownStopZone zone (received s))) := by
  rw [exec_commandHeader rfl, commandRow_accepted h]
  rfl

theorem ownStopZone_claimed {s : State} {zone : Nat} (h : ∃ c ∈ s.claims, c.zone = zone) :
    ownStopZone zone s = latch 12 s := if_pos (by simpa using h)

theorem ownStopZone_other {s : State} {zone : Nat} (h : ∀ c ∈ s.claims, c.zone ≠ zone) : ownStopZone zone s = s :=
  if_neg (by simpa using h)

/-- R58, R95: a stop condition is fixed at level 6, so its occurrence raises the level to 6. -/
theorem settle_latch_stop {s : State} {id : Nat} (ht : TablesOk s) (hid : id = 11 ∨ id = 12) :
    Latched (settle (latch id (received s))) id ∧ 6 ≤ (settle (latch id (received s))).level
      ∧ Aside (received s) (settle (latch id (received s))) := by
  have haside : Aside (received s) (settle (latch id (received s))) := (latch_calm id _).toAside.trans (settle_aside _)
  have hreceived : TablesOk (received s) := Tables.tablesOk_of_part ht rfl
  have hlatched : Latched (settle (latch id (received s))) id := by
    refine latched_settle_latch ?_ ?_ ht rfl <;> omega
  refine ⟨hlatched, ?_, haside⟩
  rcases hid with rfl | rfl
  · exact level_le_of_latched hreceived rfl haside hlatched
  · exact level_le_of_latched hreceived rfl haside hlatched

/-- Settles O27: each scope latches its condition, and a zone that is not claimed latches nothing. -/
theorem stopTaken : Obligations.StopTaken := by
  intro s source zone h ht
  refine ⟨⟨_, exec_stopRide h, settle_latch_stop ht (.inl rfl)⟩, fun hz => ?_, fun hz hs => ?_⟩
  · rw [exec_stopZone h, ownStopZone_claimed (s := received s) hz]
    exact ⟨_, rfl, settle_latch_stop ht (.inr rfl)⟩
  · rw [exec_stopZone h, ownStopZone_other (s := received s) hz, settle_received hs]

end Sys2Proof.ZoneClaims
end

section
/-! What every step keeps of the claim list. `ListOk` is what R80 says of a list, and each step of a position change and the
evaluation keep it. `claimsPart` is what `ClaimsOk` reads of the state: the evaluation, the handing on of a position change and
the resets alone write it, and every other operation leaves it as it was. -/
namespace Sys2Proof.ZoneClaims
open Sys2Proof.Machine Sys2Proof.Safety Sys2Proof.RideLink Sys2Proof.PeerTable Sys2Proof.Position
open Sys2Proof.Standing (relatch_calm)
open Sys2Proof.MotionControl (runningFrom takeResume_aside clampTallied clampTallied_aside)

/-! ## Lists of claims (R80) -/

/-- R80: at most two entries, for different zones. -/
structure ListOk (cs : List Claim) : Prop where
  atMostTwo : cs.length ≤ 2
  distinct : (cs.map Claim.zone).Nodup

theorem listOk_nil : ListOk [] := ⟨Nat.zero_le 2, .nil⟩

theorem ListOk.sublist {cs ds : List Claim} (h : ListOk cs) (hs : ds.Sublist cs) : ListOk ds :=
  ⟨hs.length_le.trans h.atMostTwo, h.distinct.sublist (hs.map Claim.zone)⟩

theorem ListOk.perm {cs ds : List Claim} (h : ListOk cs) (hp : ds.Perm cs) : ListOk ds :=
  ⟨hp.length_eq ▸ h.atMostTwo, (hp.map Claim.zone).nodup_iff.mpr h.distinct⟩

/-- The entries are changed one by one, each for its own zone. -/
theorem ListOk.map {cs : List Claim} (h : ListOk cs) {f : Claim → Claim} (hf : ∀ c, (f c).zone = c.zone) :
    ListOk (cs.map f) := by
  have hzones : (cs.map f).map Claim.zone = cs.map Claim.zone := by
    rw [List.map_map]
    exact List.map_congr_left fun c _ => hf c
  exact ⟨by rw [List.length_map]; exact h.atMostTwo, by rw [hzones]; exact h.distinct⟩

/-- An entry for a zone without one joins a list with room for it. -/
theorem ListOk.snoc {cs : List Claim} {c : Claim} (h : ListOk cs) (hl : cs.length < 2)
    (hz : ∀ d ∈ cs, d.zone ≠ c.zone) : ListOk (cs ++ [c]) := by
  refine ⟨by rw [List.length_append]; exact hl, ?_⟩
  rw [List.map_append, List.nodup_append]
  refine ⟨h.distinct, List.nodup_singleton _, fun y hy w hw => ?_⟩
  obtain ⟨d, hd, rfl⟩ := List.mem_map.mp hy
  rw [List.mem_singleton.mp hw]
  exact hz d hd

/-- Of two entries for different zones one is not the front's. -/
theorem ListOk.other {cs : List Claim} (h : ListOk cs) (hl : 2 ≤ cs.length) (z : Nat) : ∃ c ∈ cs, c.zone ≠ z := by
  by_contra hn
  have hall : cs.map Claim.zone = List.replicate cs.length z :=
    List.eq_replicate_iff.mpr ⟨List.length_map _, fun y hy => by
      obtain ⟨c, hc, rfl⟩ := List.mem_map.mp hy
      exact by_contra fun hne => hn ⟨c, hc, hne⟩⟩
  have hone := List.nodup_replicate.mp (hall ▸ h.distinct)
  omega

/-- R85: a list that has been given room holds at most one entry, each of them from before. -/
theorem makeRoom_room {cs : List Claim} (h : ListOk cs) (r : Route) (tail frontZone : Nat) :
    (makeRoom r tail frontZone cs).1.Sublist cs ∧ (makeRoom r tail frontZone cs).1.length < 2 := by
  by_cases hl : cs.length < 2
  · rw [makeRoom_short hl]
    exact ⟨.refl cs, hl⟩
  · obtain ⟨d, hd, -, -, hroom⟩ := makeRoom_full (Nat.not_lt.mp hl) (h.other (Nat.not_lt.mp hl) frontZone) r tail
    rw [hroom]
    refine ⟨List.filter_sublist, Nat.lt_of_lt_of_le ?_ h.atMostTwo⟩
    exact List.length_filter_lt_length_iff_exists.mpr ⟨d, hd, by simp⟩

theorem ListOk.entryList {cs : List Claim} (h : ListOk cs) (r : Route) (tail frontZone z : Nat) :
    ListOk (entryList r tail frontZone cs z) := by
  cases hz : claimOf cs z with
  | none =>
    obtain ⟨hsub, hlen⟩ := makeRoom_room h r tail frontZone
    rw [entryList_forced hz]
    exact (h.sublist hsub).snoc hlen fun d hd => claimOf_eq_none_iff.mp hz d (hsub.subset hd)
  | some c =>
    cases hs : c.stage with
    | held =>
      rw [entryList_held hz hs]
      exact h.map fun q => by split <;> rfl
    | intent =>
      rw [entryList_intent hz hs]
      exact h.map fun q => by split <;> rfl

theorem ListOk.placeIntent {cs : List Claim} (h : ListOk cs) (r : Route) (distance now front : Nat) :
    ListOk (placeIntent r distance now front cs) := by
  cases hn : r.nextEntry front with
  | none =>
    rw [placeIntent_none hn]
    exact h
  | some e =>
    obtain ⟨z, d⟩ := e
    by_cases hstays : (∃ c ∈ cs, c.zone = z) ∨ distance < d ∨ 2 ≤ cs.length
    · rw [placeIntent_stays hn hstays]
      exact h
    · obtain ⟨hfree, hnear, hroom⟩ : (∀ c ∈ cs, c.zone ≠ z) ∧ d ≤ distance ∧ cs.length < 2 := by simpa using hstays
      rw [placeIntent_placed hn hfree hnear hroom]
      exact h.snoc hroom hfree

theorem ListOk.pathOrder {cs : List Claim} (h : ListOk cs) (r : Route) (tail : Nat) : ListOk (pathOrder r tail cs) :=
  h.perm (pathOrder_perm r tail cs)

/-- R81: the four steps of a position change. -/
theorem ListOk.claimsAfter {cs : List Claim} (h : ListOk cs) (r : Route) (span : Option (Nat × Nat)) (c : Settings)
    (now front : Nat) : ListOk (claimsAfter r span c now front cs) := by
  have hkept : ListOk (withdrawStep r c.bodyLength front (releaseStep r c.bodyLength span cs).1) :=
    (h.sublist List.filter_sublist).sublist List.filter_sublist
  have hentered : ∀ (zs : List Nat) (ds : List Claim), ListOk ds →
      ListOk (zs.foldl (Machine.entryList r (r.tailOf c.bodyLength front) (r.zoneAt front)) ds) := by
    intro zs
    induction zs with
    | nil => exact fun _ hd => hd
    | cons z zs ih => exact fun _ hd => ih _ (hd.entryList r _ _ z)
  exact ((hentered _ _ hkept).placeIntent r _ _ _).pathOrder r _

/-- R86: the claims of the initial fix, which finds the list empty. -/
theorem listOk_initialList (r : Route) (c : Settings) (now front : Nat) : ListOk (initialList r c now front []) := by
  have hzones : ListOk ((initialZones r c.bodyLength front).map fun z =>
      { zone := z, stage := .held, since := none, mark := false }) := by
    rw [initialZones_eq]
    constructor
    · split_ifs <;> simp
    · split_ifs with _ _ htail
      · exact .nil
      · exact List.nodup_singleton _
      · exact List.nodup_singleton _
      · exact List.nodup_cons.mpr ⟨fun hz => htail (.inr (List.mem_singleton.mp hz).symm), List.nodup_singleton _⟩
  exact ((hzones.pathOrder r _).placeIntent r _ _ _).pathOrder r _

/-! ## What `ClaimsOk` reads -/

/-- The claim list and the confidence. -/
def claimsPart (s : State) : List Claim × Confidence := (s.claims, s.tracker.conf)

theorem claimsOk_of_list {t : State} (h : ListOk t.claims) (hu : t.tracker.conf = .unfixed → t.claims = []) :
    ClaimsOk t := ⟨h.atMostTwo, h.distinct, hu⟩

theorem listOk_of_claimsOk {s : State} (h : ClaimsOk s) : ListOk s.claims := ⟨h.atMostTwo, h.distinct⟩

theorem claimsOk_of_empty {t : State} (h : t.claims = []) : ClaimsOk t := claimsOk_of_list (h ▸ listOk_nil) fun _ => h

theorem claimsOk_of_part {s t : State} (h : ClaimsOk s) (e : claimsPart t = claimsPart s) : ClaimsOk t := by
  simp only [claimsPart, Prod.mk.injEq] at e
  obtain ⟨hc, hk⟩ := e
  exact claimsOk_of_list (hc ▸ listOk_of_claimsOk h) (by rw [hc, hk]; exact h.unfixed)

theorem claimsOk_aside {s t : State} (h : ClaimsOk s) (a : Aside s t) : ClaimsOk t :=
  claimsOk_of_part h (by rw [claimsPart, a.outside.claims, a.outside.tracker]; rfl)

theorem claimsOk_calm {s t : State} (h : ClaimsOk s) (c : Calm s t) : ClaimsOk t := claimsOk_aside h c.toAside

theorem claimsOk_settle {s : State} (h : ClaimsOk s) : ClaimsOk (settle s) := claimsOk_aside h (settle_aside s)

theorem claimsOk_if {c : Prop} [Decidable c] {s t : State} (hs : ClaimsOk s) (ht : ClaimsOk t) :
    ClaimsOk (if c then s else t) := by
  split
  · exact hs
  · exact ht

/-- A command that does nothing unless a test holds, and else settles what it has done. -/
theorem claimsOk_settle_if {c : Prop} [Decidable c] {s u : State} (h : ClaimsOk s) (hu : ClaimsOk u) :
    ClaimsOk (if c then settle u else s) := claimsOk_if (claimsOk_settle hu) h

theorem claimsOk_foldl {α : Type} {f : State → α → State} (hf : ∀ a x, ClaimsOk a → ClaimsOk (f a x)) (xs : List α)
    {s : State} (h : ClaimsOk s) : ClaimsOk (xs.foldl f s) := by
  induction xs generalizing s with
  | nil => exact h
  | cons x xs ih => exact ih (hf s x h)

/-- An operation is applied where an option asks for it. -/
theorem claimsOk_option {f : State → State} (hf : ∀ u, ClaimsOk u → ClaimsOk (f u)) (b : Bool) {s : State}
    (h : ClaimsOk s) : ClaimsOk (if b then f s else s) := claimsOk_if (hf s h) h

/-! ## The evaluation (R88 to R93) -/

theorem judgeClaim_zone (r : Route) (s : State) (c : Claim) : (judgeClaim r s c).1.zone = c.zone := by
  unfold judgeClaim
  dsimp only
  split
  · split <;> rfl
  · split_ifs <;> rfl

theorem claimsOk_evaluateClaims {s : State} (h : ClaimsOk s) : ClaimsOk (evaluateClaims s) := by
  cases hp : s.placed with
  | none =>
    rw [evaluateClaims_none hp]
    exact h
  | some p =>
    obtain ⟨r, x⟩ := p
    have hcalm := evaluateClaims_some hp
    have hjudged : ClaimsOk { s with claims := (s.claims.map (judgeClaim r s)).map Prod.fst } := by
      refine claimsOk_of_list ?_ fun hu => ?_
      · rw [List.map_map]
        exact (listOk_of_claimsOk h).map (judgeClaim_zone r s)
      · show (s.claims.map (judgeClaim r s)).map Prod.fst = []
        rw [h.unfixed hu]
        rfl
    exact claimsOk_calm hjudged hcalm

/-! ## The position change (R45, R81, R86) -/

/-- A change that leaves a position known; an initial fix finds no claims. -/
theorem claimsOk_handOn {s : State} (h : ClaimsOk s) (r : Route) {res : TrackerResult}
    (hk : res.change.kind = .initialFix → s.tracker.conf = .unfixed) (hc : res.tracker.conf ≠ .unfixed) :
    ClaimsOk (handOn r res s) := by
  have hclaims : (handOn r res s).claims = claimsTaken r res.change { s with tracker := res.tracker } :=
    (settle_aside _).outside.claims.symm.trans (settle_handOn_claims r res s)
  refine claimsOk_of_list ?_ fun hu => absurd hu (by rw [handOn_tracker]; exact hc)
  rw [hclaims, claimsTaken]
  split
  · rename_i hinitial
    rw [h.unfixed (hk hinitial)]
    exact listOk_initialList r _ _ _
  · exact (listOk_of_claimsOk h).claimsAfter r _ _ _ _

/-- R43: misses leave a position known. -/
theorem missLoop_fixed {t : Tracker} (h : t.conf ≠ .unfixed) (r : Route) (f n : Nat) (rs : List Report) :
    (missLoop r f n t rs).1.conf ≠ .unfixed := by
  induction n generalizing t rs with
  | zero => exact h
  | succ n ih =>
    rw [missLoop]
    split
    · exact h
    · split
      · exact h
      · split
        · exact nofun
        · refine ih ?_ _
          exact nofun

theorem finishChange_conf (r : Route) (tolerance speed : Nat) (overshot : Bool) (rs : List Report) (ch : PosChange)
    (t : Tracker) : (finishChange r tolerance speed overshot rs ch t).tracker.conf = t.conf := by
  obtain ⟨_, _, _, _, hf⟩ := finishChange_frame r tolerance speed overshot rs ch t
  rw [hf]

theorem advanceResult_fixed {t : Tracker} (h : t.conf ≠ .unfixed) (r : Route) (tolerance speed a : Nat) :
    (advanceResult r tolerance speed a t).tracker.conf ≠ .unfixed := by
  by_cases ha : a = 0
  · subst ha
    rw [advanceResult_still, finishChange_conf]
    exact h
  · rw [advanceResult_moving ha, finishChange_conf]
    show (advanceMisses r a t).1.conf ≠ .unfixed
    unfold advanceMisses
    split
    · exact missLoop_fixed (t := t.forward r a) h r a 4 []
    · exact h

/-- R40: a fix leaves GOOD, and is the initial one from UNFIXED alone. -/
theorem fixResult_good (r : Route) (tolerance speed code : Nat) (lateral : Int) (m : Nat) (t : Tracker) :
    (fixResult r tolerance speed code lateral m t).tracker.conf = .good
      ∧ ((fixResult r tolerance speed code lateral m t).change.kind = .initialFix → t.conf = .unfixed) := by
  unfold fixResult
  dsimp only
  split
  · rename_i hu
    exact ⟨finishChange_conf _ _ _ _ _ _ _, fun _ => hu⟩
  · split
    · exact ⟨finishChange_conf _ _ _ _ _ _ _, nofun⟩
    · exact ⟨finishChange_conf _ _ _ _ _ _ _, nofun⟩

/-- R41, R42: a correction leaves GOOD, and is no initial fix. -/
theorem correctionResult_good (r : Route) (tolerance speed code : Nat) (lateral : Int) (m : Nat) (t : Tracker) :
    (correctionResult r tolerance speed code lateral m t).tracker.conf = .good
      ∧ (correctionResult r tolerance speed code lateral m t).change.kind ≠ .initialFix := by
  unfold correctionResult
  dsimp only
  split
  · exact ⟨finishChange_conf _ _ _ _ _ _ _, nofun⟩
  · refine ⟨finishChange_conf _ _ _ _ _ _ _, ?_⟩
    rw [finishChange_change]
    dsimp only
    split <;> exact nofun

theorem claimsOk_markerReport {s : State} (h : ClaimsOk s) (code : Nat) (lateral : Int) :
    ClaimsOk (markerReport code lateral s) := by
  have hunknown : ClaimsOk (tally .markerUnknown 1 s) := claimsOk_calm h (tally_calm _ _ s)
  unfold markerReport
  split
  · exact h
  · rename_i r _
    split
    · exact hunknown
    · rename_i m _
      obtain ⟨hfix, hinitial⟩ := fixResult_good r s.settings.berthTolerance s.speed code lateral (1000 * m) s.tracker
      obtain ⟨hmatch, hother⟩ := correctionResult_good r s.settings.berthTolerance s.speed code lateral (1000 * m) s.tracker
      exact claimsOk_if (claimsOk_handOn h r hinitial (by rw [hfix]; decide))
        (claimsOk_if (claimsOk_handOn h r (fun e => absurd e hother) (by rw [hmatch]; decide)) hunknown)

/-- R35: a position that is handed on is known. -/
theorem conf_of_placed {s : State} {p : Route × Nat} (h : s.placed = some p) : s.tracker.conf ≠ .unfixed := fun hu => by
  rw [State.placed, if_pos hu] at h
  exact nomatch h

theorem claimsOk_applyAdvance {s : State} (h : ClaimsOk s) (a : Nat) : ClaimsOk (applyAdvance a s) := by
  have hcounted : ClaimsOk (speedWithdraw (countAdvance a s)) :=
    claimsOk_calm (s := countAdvance a s) (claimsOk_of_part h rfl) (speedWithdraw_calm _)
  unfold applyAdvance
  dsimp only
  split
  · exact hcounted
  · rename_i r x hp
    refine claimsOk_handOn hcounted r (fun hk => ?_) (advanceResult_fixed (conf_of_placed hp) r _ _ _)
    rw [advanceResult_kind] at hk
    exact absurd hk (by decide)

theorem claimsOk_odometry {s : State} (h : ClaimsOk s) (left right : Half) : ClaimsOk (odometry left right s) := by
  have hread : ClaimsOk (readCounts left right s) := claimsOk_of_part h rfl
  exact claimsOk_if hread (claimsOk_applyAdvance (claimsOk_calm hread (reportAll_calm _ _)) _)

/-! ## The Link Controller leaves the claims alone -/

theorem claimsPart_requestChannel (s : State) : claimsPart (requestChannel s) = claimsPart s := by
  obtain ⟨a, n, d, e⟩ := requestChannel_frame s
  rw [e]
  rfl

theorem claimsOk_beaconBecomesDue {s : State} (h : ClaimsOk s) : ClaimsOk (beaconBecomesDue s) :=
  claimsOk_if h (claimsOk_of_part h ((claimsPart_requestChannel _).trans rfl))

theorem claimsOk_beaconAtOnce {s : State} (h : ClaimsOk s) : ClaimsOk (beaconAtOnce s) :=
  claimsOk_beaconBecomesDue (s := loadBeaconTimer s) (claimsOk_of_part h rfl)

/-- R5, R88: the start of a beacon is an evaluation. -/
theorem claimsOk_chooseFrame {s : State} (h : ClaimsOk s) : ClaimsOk (chooseFrame s) := by
  unfold chooseFrame
  split
  · exact claimsOk_evaluateClaims (s := beaconStarted s) (claimsOk_of_part h rfl)
  · split
    · exact claimsOk_of_part h rfl
    · rename_i f rest _
      have hstarted : ClaimsOk (startSending (queuedBytes s.link.ownAddress f) (setQueue rest s)) :=
        claimsOk_of_part h rfl
      cases f with
      | cue stamp id dest body => exact claimsOk_calm hstarted (cueDone_calm id _)
      | report dest body => exact hstarted

theorem claimsOk_offerCue {s : State} (h : ClaimsOk s) (id dest : Nat) (body : List Byte) :
    ClaimsOk (offerCue id dest body s) := by
  unfold offerCue
  dsimp only
  split
  · exact claimsOk_of_part h ((claimsPart_requestChannel _).trans rfl)
  · split
    · exact claimsOk_of_part h rfl
    · exact claimsOk_calm h (dropCue_calm s)

theorem claimsOk_ownQuery {s : State} (h : ClaimsOk s) (source kind selector : Nat) :
    ClaimsOk (ownQuery source kind selector s) :=
  claimsOk_if (claimsOk_of_part h rfl)
    (claimsOk_if (claimsOk_of_part h ((claimsPart_requestChannel _).trans rfl)) (claimsOk_of_part h rfl))

/-! ## Motion, conditions and restraint leave the claims alone -/

theorem claimsOk_stopOrHold {s : State} (h : ClaimsOk s) (d : Nat) : ClaimsOk (stopOrHold d s) := by
  have henter : ∀ m, ClaimsOk (enter m s) := fun _ => claimsOk_of_part h rfl
  unfold stopOrHold
  split
  · exact claimsOk_if (henter _) h
  · exact claimsOk_if (henter _) h
  · exact claimsOk_if (henter _) h
  all_goals exact h

theorem claimsOk_controlInterval {s : State} (h : ClaimsOk s) : ClaimsOk (controlInterval s) := by
  have hrelease : ∀ p, ClaimsOk (releaseHold p s) := fun p => claimsOk_if (claimsOk_of_part h rfl) h
  have hform : ClaimsOk (formDemand s).2 :=
    claimsOk_stopOrHold (claimsOk_if (claimsOk_calm (hrelease _) (latch_calm 8 _)) (hrelease _)) _
  have hsteer : ClaimsOk (if (curvatureDemand s).2 then clampTallied (formDemand s).2 else (formDemand s).2) :=
    claimsOk_if (claimsOk_aside hform (clampTallied_aside _)) hform
  exact claimsOk_of_part hsteer rfl

theorem claimsOk_ownClear {s : State} (h : ClaimsOk s) (conditions : BitVec 32) (options : Byte) :
    ClaimsOk (ownClear conditions options s) := by
  have hfirst : ∀ u, ClaimsOk u → ClaimsOk (releaseFirstFault u) := fun _ hu => claimsOk_of_part hu rfl
  have htallies : ∀ u, ClaimsOk u → ClaimsOk (resetTallies u) := fun _ hu => claimsOk_of_part hu rfl
  have hdiagnostics : ∀ u, ClaimsOk u → ClaimsOk (clearDiagnostics u) := fun _ hu => claimsOk_of_part hu rfl
  have hseats : ∀ u, ClaimsOk u → ClaimsOk (freeSeats u) := fun _ hu => claimsOk_of_part hu rfl
  have hclear : ∀ u id, ClaimsOk u → ClaimsOk (onRecord id Condition.clear u) := fun _ _ hu => claimsOk_of_part hu rfl
  have hsteps : ClaimsOk (clearSteps conditions options s) :=
    claimsOk_foldl hclear _ (claimsOk_option hseats _
      (claimsOk_option hdiagnostics _ (claimsOk_option htallies _ (claimsOk_option hfirst _ h))))
  exact claimsOk_calm (claimsOk_foldl (fun a id ha => claimsOk_calm ha (relatch_calm a id)) _ hsteps) (handLevel_calm _)

theorem claimsOk_ownUnlock {s : State} (h : ClaimsOk s) (source : Nat) (seats : Byte) :
    ClaimsOk (ownUnlock source seats s) := by
  unfold ownUnlock
  split
  · exact claimsOk_of_part h rfl
  · refine claimsOk_foldl (fun u i hu => ?_) _ h
    unfold unlockSeat
    split
    · exact hu
    · exact claimsOk_if (claimsOk_of_part hu rfl) hu

theorem claimsOk_ownStopZone {s : State} (h : ClaimsOk s) (zone : Nat) : ClaimsOk (ownStopZone zone s) :=
  claimsOk_if (claimsOk_calm h (latch_calm 12 s)) h

theorem claimsOk_ownStop {s : State} (h : ClaimsOk s) (scope zone : Nat) : ClaimsOk (ownStop scope zone s) := by
  unfold ownStop
  split
  · exact claimsOk_calm h (latch_calm 11 s)
  · exact claimsOk_ownStopZone h zone
  · exact h

theorem claimsOk_ownDispatch {s : State} (h : ClaimsOk s) (source : Nat) : ClaimsOk (ownDispatch source s) :=
  claimsOk_if (claimsOk_of_part h rfl) (claimsOk_of_part h rfl)

theorem claimsOk_ownResume {s : State} (h : ClaimsOk s) (source : Nat) : ClaimsOk (ownResume source s) := by
  unfold ownResume
  split
  · exact claimsOk_of_part h rfl
  · exact claimsOk_aside (s := runningFrom s) (claimsOk_of_part h rfl) (takeResume_aside s)

theorem claimsOk_ownRetireImmediate {s : State} (h : ClaimsOk s) : ClaimsOk (ownRetireImmediate s) := by
  unfold ownRetireImmediate
  split
  · exact h
  · split <;> exact claimsOk_of_part h rfl

theorem claimsOk_ownRetire {s : State} (h : ClaimsOk s) (form : Nat) : ClaimsOk (ownRetire form s) := by
  unfold ownRetire
  split
  · exact claimsOk_ownRetireImmediate h
  · exact claimsOk_of_part h rfl
  · exact claimsOk_of_part h rfl
  · exact h

/-! ## The Peer Table -/

theorem claimsOk_becomeStale {s : State} (h : ClaimsOk s) (a : Nat) (p : Peer) : ClaimsOk (becomeStale a p s) :=
  claimsOk_calm (s := setPeer a _ s) (claimsOk_of_part h rfl) (becomeStale_calm a p s)

theorem claimsOk_becomeLost {s : State} (h : ClaimsOk s) (a : Nat) (p : Peer) : ClaimsOk (becomeLost a p s) :=
  claimsOk_calm (s := setPeer a _ s) (claimsOk_of_part h rfl) (becomeLost_calm a p s)

theorem claimsOk_forgetPeer {s : State} (h : ClaimsOk s) (address : Nat) : ClaimsOk (forgetPeer address s) := by
  unfold forgetPeer
  split
  · exact h
  · split
    · exact h
    · exact claimsOk_if (claimsOk_of_part h rfl) (claimsOk_of_part h rfl)

/-- R23, R88: an accepted VEHICLE beacon is an evaluation. -/
theorem claimsOk_takeBeacon {s : State} (h : ClaimsOk s) (source : Nat) (kind : StationKind) (body : List Byte) :
    ClaimsOk (takeBeacon source kind body s) := by
  have ht : ClaimsOk (beaconWritten source kind body s) :=
    claimsOk_calm (s := setPeer source _ s) (claimsOk_of_part h rfl) (beaconWritten_calm source kind body s)
  refine claimsOk_if h ?_
  cases kind with
  | vehicle => exact claimsOk_calm (claimsOk_evaluateClaims ht) (routeCheck_calm body _)
  | scene => exact claimsOk_calm ht (eitherOrder_calm (cuesBeacon_calm _ _) (soundBeacon_calm _) _)
  | load => exact ht
  | operator => exact ht

/-! ## Reception and the command rows (R10 to R13) -/

theorem claimsOk_ownRestart {s : State} (h : ClaimsOk s) (source : Nat) : ClaimsOk (ownRestart source s) := by
  unfold ownRestart
  split
  · exact claimsOk_of_part h rfl
  · exact claimsOk_of_empty rfl

theorem claimsOk_command {owner : State → State} (ho : ∀ s, ClaimsOk s → ClaimsOk (owner s)) (kind : CommandKind)
    (source target : Nat) {s : State} (h : ClaimsOk s) : ClaimsOk (command kind source target owner s) := by
  unfold command
  split
  · exact h
  · split
    · exact claimsOk_of_part h rfl
    · exact ho s h

/-- What a command row's owner does keeps the claims. -/
theorem claimsOk_commandOwner {s : State} (h : ClaimsOk s) (c : Instr) : ClaimsOk (commandOwner c s) := by
  unfold commandOwner
  split
  · exact claimsOk_calm h (latch_calm 11 s)
  · exact claimsOk_ownStopZone h _
  · exact claimsOk_ownResume h _
  · exact claimsOk_ownDispatch h _
  · exact claimsOk_ownUnlock h _ _
  · exact claimsOk_ownClear h _ _
  · exact claimsOk_ownRetireImmediate h
  · exact claimsOk_of_part h rfl
  · exact claimsOk_of_part h rfl
  · exact claimsOk_forgetPeer h _
  · exact claimsOk_ownQuery h _ _ _
  · exact claimsOk_ownRestart h _
  · exact h

/-- Every command row keeps the claims. -/
theorem claimsOk_commandHeader {c : Instr} {kind : CommandKind} {source target : Nat} {s : State} (h : ClaimsOk s)
    (hc : commandHeader c = some (kind, source, target)) : Answers ClaimsOk (exec c s) := by
  rw [exec_commandHeader hc]
  have ht : ClaimsOk (carrierOff s) := claimsOk_of_part h rfl
  exact answers_next (claimsOk_settle (claimsOk_if ht (claimsOk_if (claimsOk_calm ht (badFrame_calm _))
    (claimsOk_command (fun _ hu => claimsOk_commandOwner hu c) kind source target
      (s := validFrame (carrierOff s)) (claimsOk_of_part ht rfl)))))

theorem claimsOk_beaconFrameTaken {s : State} (h : ClaimsOk s) (f : Frame) : ClaimsOk (beaconFrameTaken f s) := by
  unfold beaconFrameTaken
  split
  · exact claimsOk_calm (s := hearOwn s) (claimsOk_of_part h rfl) (latch_calm 2 _)
  · split
    · exact h
    · exact claimsOk_takeBeacon h _ _ _

theorem claimsOk_route {s : State} (h : ClaimsOk s) (f : Frame) : ClaimsOk (route f s) := by
  have hc : ∀ (kind : CommandKind) (owner : State → State), (∀ u, ClaimsOk u → ClaimsOk (owner u)) →
      ClaimsOk (command kind f.source f.target owner s) := fun kind owner ho => claimsOk_command ho kind _ _ h
  unfold route
  split
  · exact claimsOk_beaconFrameTaken h f
  · exact hc _ _ fun _ hu => claimsOk_ownStop hu _ _
  · exact hc _ _ fun _ hu => claimsOk_ownResume hu _
  · exact hc _ _ fun _ hu => claimsOk_ownDispatch hu _
  · exact hc _ _ fun _ hu => claimsOk_ownUnlock hu _ _
  · exact hc _ _ fun _ hu => claimsOk_ownClear hu _ _
  · exact hc _ _ fun _ hu => claimsOk_ownRetire hu _
  · exact hc _ _ fun _ hu => claimsOk_forgetPeer hu _
  · exact hc _ _ fun _ hu => claimsOk_ownQuery hu _ _ _
  · exact hc _ _ fun _ hu => claimsOk_ownRestart hu _
  · exact h

theorem claimsOk_receive {s : State} (h : ClaimsOk s) (frame : List Byte) : ClaimsOk (receive frame s) := by
  have ht : ClaimsOk (carrierOff s) := claimsOk_of_part h rfl
  refine claimsOk_if ht ?_
  split
  · exact claimsOk_calm ht (badFrame_calm _)
  · exact claimsOk_route (s := validFrame (carrierOff s)) (claimsOk_of_part ht rfl) _

/-! ## The image load and the end of a full reset (R180 to R185) -/

theorem claimsOk_inputsAtReset {s : State} (h : ClaimsOk s) : ClaimsOk (inputsAtReset s) :=
  claimsOk_option (fun u hu => claimsOk_calm hu (latch_calm 10 u)) _
    (claimsOk_option (fun u hu => claimsOk_calm hu (latch_calm 9 u)) _ h)

theorem claimsOk_loadEnds {s : State} (h : ClaimsOk s) : ClaimsOk (loadEnds s) := claimsOk_of_part h rfl

theorem claimsOk_enterFault {s : State} (h : ClaimsOk s) : ClaimsOk (enterFault s) := by
  have hf : ClaimsOk (loadFails s) := claimsOk_of_part h rfl
  exact claimsOk_if hf (claimsOk_beaconAtOnce hf)

theorem claimsOk_configure {s : State} (h : ClaimsOk s) (st : Staged) (clips : List (Option Clip)) :
    ClaimsOk (configure st clips s) :=
  claimsOk_calm (s := takeValues st clips s) (claimsOk_of_part h rfl)
    ((Calm.foldl _ (fun a k => latch_calm (19 + k) a) _ _).trans (handLevel_calm _))

theorem claimsOk_noImage {s : State} (h : ClaimsOk s) (st : Staged) : ClaimsOk (noImage st s) :=
  claimsOk_enterFault (claimsOk_loadEnds (claimsOk_configure (claimsOk_calm h (latchClamped_calm _ s)) _ _))

theorem claimsOk_withImage {s : State} (h : ClaimsOk s) (st : Staged) (image : List Byte) :
    ClaimsOk (withImage st image s) := by
  have hrecords : ∀ b, ClaimsOk (takeRecords (takeImage image st.settings.flashSize st.address).value (latchClamped b s)) :=
    fun b => claimsOk_of_part (claimsOk_calm h (latchClamped_calm b s)) rfl
  have hlisten : ∀ u, ClaimsOk u → ClaimsOk (beginListening u) := fun _ hu => claimsOk_of_part hu rfl
  exact hlisten _ (claimsOk_loadEnds (claimsOk_configure (hrecords _)
    { st with settings := (checkAnnouncements
      (takeImage image st.settings.flashSize st.address).value.clips st.settings).value } _))

theorem claimsOk_passedBlock {s : State} (h : ClaimsOk s) (block : List Byte) : ClaimsOk (passedBlock block s) := by
  have ht := claimsOk_calm h (latchClamped_calm (takeBlock block).clamped s)
  exact claimsOk_if (claimsOk_noImage ht _) (claimsOk_of_part ht rfl)

theorem claimsOk_configBlockRead {s : State} (h : ClaimsOk s) (block : List Byte) :
    Answers ClaimsOk (execConfigBlockRead block s) :=
  answers_next (claimsOk_settle_if h
    (claimsOk_if (claimsOk_passedBlock h block) (claimsOk_enterFault (claimsOk_loadEnds h))))

theorem claimsOk_imageLoadEnd {s : State} (h : ClaimsOk s) (image : List Byte) :
    Answers ClaimsOk (execImageLoadEnd image s) := by
  refine answers_next ?_
  split
  · exact h
  · exact claimsOk_settle_if h (claimsOk_if (claimsOk_withImage h _ image) (claimsOk_noImage h _))

theorem claimsOk_leaveStart {s : State} (h : ClaimsOk s) : ClaimsOk (leaveStart s) := by
  have hlisten : ClaimsOk (atOnce (listenEnds s)) :=
    claimsOk_calm (s := listenEnds s) (claimsOk_of_part h rfl) (atOnce_calm _)
  have hunfixed : ClaimsOk (unfixedStart (atOnce (listenEnds s))) :=
    claimsOk_if (claimsOk_calm hlisten (latch_calm 25 _)) hlisten
  exact claimsOk_calm (claimsOk_aside hunfixed (applyLevel_aside _).1) (atOnce_calm _)

theorem claimsOk_listenExpiry {s : State} (h : ClaimsOk s) : Answers ClaimsOk (execListenExpiry s) := by
  refine answers_next ?_
  split
  · exact claimsOk_settle_if h (claimsOk_beaconAtOnce (claimsOk_leaveStart h))
  · exact h

/-! ## The remaining commands -/

theorem claimsOk_carrierOn {s : State} (h : ClaimsOk s) : Answers ClaimsOk (execCarrierOn s) := by
  refine answers_next (claimsOk_if h ?_)
  dsimp only
  split <;> exact claimsOk_of_part h rfl

theorem claimsOk_gapMet {s : State} (h : ClaimsOk s) : Answers ClaimsOk (execGapMet s) := by
  refine answers_next (claimsOk_if h ?_)
  dsimp only
  split <;> exact claimsOk_of_part h rfl

theorem claimsOk_countdownEnd {s : State} (h : ClaimsOk s) : Answers ClaimsOk (execCountdownEnd s) := by
  refine answers_next ?_
  split
  · exact claimsOk_settle (claimsOk_chooseFrame h)
  all_goals exact h

theorem claimsOk_transmissionEnd {s : State} (h : ClaimsOk s) : Answers ClaimsOk (execTransmissionEnd s) := by
  refine answers_next ?_
  split <;> exact claimsOk_of_part h rfl

theorem claimsOk_beaconTimerExpiry {s : State} (h : ClaimsOk s) : Answers ClaimsOk (execBeaconTimerExpiry s) := by
  refine answers_next ?_
  split
  · exact h
  · exact claimsOk_if (claimsOk_beaconAtOnce h) h

theorem claimsOk_cueLatenessExpiry {s : State} (h : ClaimsOk s) : Answers ClaimsOk (execCueLatenessExpiry s) := by
  refine answers_next ?_
  split
  · exact h
  · rename_i q _
    obtain ⟨a, ha⟩ := gapWithoutWork_frame (setQueue q s)
    have hgap : ClaimsOk (gapWithoutWork (setQueue q s)) := ha ▸ claimsOk_of_part h rfl
    exact claimsOk_settle (claimsOk_calm hgap ((tally_calm _ _ _).trans (latch_calm 17 _)))

theorem claimsOk_silenceTimerExpiry {s : State} (h : ClaimsOk s) : Answers ClaimsOk (execSilenceTimerExpiry s) := by
  refine answers_next ?_
  split
  · exact h
  · exact claimsOk_settle_if h (claimsOk_calm (s := fallSilent s) (claimsOk_of_part h rfl) (latch_calm 3 _))

theorem claimsOk_ownAddressTimeExpiry {s : State} (h : ClaimsOk s) : Answers ClaimsOk (execOwnAddressTimeExpiry s) := by
  refine answers_next ?_
  split
  · exact h
  · exact claimsOk_if (claimsOk_of_part h rfl) h

theorem claimsOk_peerStale {s : State} (h : ClaimsOk s) (address : Nat) : Answers ClaimsOk (execPeerStale address s) := by
  refine answers_next ?_
  split
  · exact h
  · rename_i p _
    have hstale := claimsOk_becomeStale h address p
    exact claimsOk_settle_if h (claimsOk_if (claimsOk_becomeLost hstale address p) hstale)

theorem claimsOk_peerLost {s : State} (h : ClaimsOk s) (address : Nat) : Answers ClaimsOk (execPeerLost address s) := by
  refine answers_next ?_
  split
  · exact h
  · exact claimsOk_settle_if h (claimsOk_becomeLost h address _)

/-- R76: a stop input that is asserted latches its condition, unless the reset input is held. -/
theorem claimsOk_stopInput {s t : State} (h : ClaimsOk s) (e : claimsPart t = claimsPart s) (asserted held : Bool)
    (id : Nat) : Answers ClaimsOk (.next (if asserted then s else if held then t else settle (latch id t))) := by
  have ht := claimsOk_of_part h e
  exact answers_next (claimsOk_if h (claimsOk_if ht (claimsOk_settle (claimsOk_calm ht (latch_calm id t)))))

theorem claimsOk_unlockPulseExpiry {s : State} (h : ClaimsOk s) (seat : Nat) :
    Answers ClaimsOk (execUnlockPulseExpiry seat s) := by
  refine answers_next ?_
  split
  · exact h
  · rename_i q _
    split
    · exact claimsOk_settle_if h
        (claimsOk_calm (s := setSeat (seat - 1) q.pulseEnd s) (claimsOk_of_part h rfl) (latch_calm 16 _))
    · exact h

theorem claimsOk_durationThreshold {s : State} (h : ClaimsOk s) (key : DurationKey) (counter : Nat) :
    Answers ClaimsOk (execDurationThreshold key counter s) := by
  refine answers_next ?_
  split
  · exact h
  · exact claimsOk_settle_if h (claimsOk_calm h (offerThreshold_calm key counter s))

theorem claimsOk_serveCue {s : State} (h : ClaimsOk s) (w : WaitingCue) : ClaimsOk (serveCue s w) := by
  have hu : ClaimsOk (unlist w s) := claimsOk_of_part h rfl
  refine claimsOk_settle_if h ?_
  unfold executeCue
  split
  · exact hu
  · split
    · exact claimsOk_offerCue hu _ _ _
    · exact claimsOk_calm hu (soundStart_calm _ _ _ _ _ _)
    · exact claimsOk_calm hu (soundStop_calm _ _ _)
    · exact hu

theorem claimsOk_pendingAdvance {s : State} (h : ClaimsOk s) : Answers ClaimsOk (execPendingAdvance s) :=
  answers_next (claimsOk_if h (claimsOk_settle
    (claimsOk_foldl (fun _ w hu => claimsOk_serveCue hu w) _ (s := tick s) (claimsOk_of_part h rfl))))

theorem claimsOk_watchExpiry {s : State} (h : ClaimsOk s) (cue : Nat) : Answers ClaimsOk (execWatchExpiry cue s) := by
  refine answers_next ?_
  split
  · exact h
  · split
    · exact claimsOk_settle_if h (claimsOk_calm h (watchOccurs_calm cue s))
    · exact h

theorem claimsOk_outputFrame {s : State} (h : ClaimsOk s) : Answers ClaimsOk (execOutputFrame s) :=
  answers_next (claimsOk_if h (claimsOk_settle
    (claimsOk_calm (s := { s with sound := s.sound.advance }) (claimsOk_of_part h rfl) (outputFrame_calm s))))

theorem claimsOk_fetchComplete {s : State} (h : ClaimsOk s) (done : Completion) :
    Answers ClaimsOk (execFetchComplete done s) := by
  refine answers_next ?_
  split
  · exact h
  · exact claimsOk_settle_if h (claimsOk_of_part h rfl)

theorem claimsOk_fetchTimeout {s : State} (h : ClaimsOk s) : Answers ClaimsOk (execFetchTimeout s) := by
  refine answers_next ?_
  split
  · exact h
  · exact claimsOk_settle_if h (claimsOk_calm h (readFails_calm _ s))

theorem claimsOk_waitExpiry {s : State} (h : ClaimsOk s) (voice : Nat) : Answers ClaimsOk (execWaitExpiry voice s) := by
  refine answers_next ?_
  split
  · exact h
  · split
    · exact claimsOk_settle_if h (claimsOk_of_part h rfl)
    · exact h

/-- Every command answers a next state and keeps the claims. -/
theorem claimsOk_exec (c : Instr) (s : State) (h : ClaimsOk s) : Answers ClaimsOk (exec c s) := by
  cases c with
  | fullReset => exact answers_next (claimsOk_of_empty rfl)
  | configBlockRead block => exact claimsOk_configBlockRead h block
  | imageLoadEnd image => exact claimsOk_imageLoadEnd h image
  | listenExpiry => exact claimsOk_listenExpiry h
  | carrierOn => exact claimsOk_carrierOn h
  | gapMet => exact claimsOk_gapMet h
  | countdownEnd => exact claimsOk_countdownEnd h
  | transmissionEnd => exact claimsOk_transmissionEnd h
  | beaconTimerExpiry => exact claimsOk_beaconTimerExpiry h
  | cueLatenessExpiry => exact claimsOk_cueLatenessExpiry h
  | silenceTimerExpiry => exact claimsOk_silenceTimerExpiry h
  | ownAddressTimeExpiry => exact claimsOk_ownAddressTimeExpiry h
  | receiveFrame frame => exact answers_next (claimsOk_settle (claimsOk_receive h frame))
  | stopRide source => exact claimsOk_commandHeader h rfl
  | stopZone source zone => exact claimsOk_commandHeader h rfl
  | resume source target => exact claimsOk_commandHeader h rfl
  | dispatch source target => exact claimsOk_commandHeader h rfl
  | unlock source target seats => exact claimsOk_commandHeader h rfl
  | clear source target conditions options => exact claimsOk_commandHeader h rfl
  | retireImmediate source target => exact claimsOk_commandHeader h rfl
  | retireAtStation source target => exact claimsOk_commandHeader h rfl
  | retireLift source target => exact claimsOk_commandHeader h rfl
  | forget source target address => exact claimsOk_commandHeader h rfl
  | query source target kind selector => exact claimsOk_commandHeader h rfl
  | restart source target => exact claimsOk_commandHeader h rfl
  | peerStale address => exact claimsOk_peerStale h address
  | peerLost address => exact claimsOk_peerLost h address
  | odometryAdvance left right => exact answers_next (claimsOk_settle (claimsOk_odometry h left right))
  | markerReport code lateral complete =>
    exact answers_next (claimsOk_settle (claimsOk_if h (claimsOk_markerReport h _ _)))
  | permitCompute => exact answers_next (claimsOk_if h (claimsOk_settle (claimsOk_controlInterval h)))
  | driveFault =>
    exact claimsOk_stopInput (t := { s with driveFaultIn := true }) h rfl s.driveFaultIn s.resetHeld 9
  | localStop =>
    exact claimsOk_stopInput (t := { s with localStopIn := true }) h rfl s.localStopIn s.resetHeld 10
  | claimIntervalEvaluation => exact answers_next (claimsOk_settle (claimsOk_if (claimsOk_evaluateClaims h) h))
  | windowEnd positions =>
    exact answers_next (claimsOk_settle_if h
      (claimsOk_calm (s := judgeSeats positions s) (claimsOk_of_part h rfl) (windowEnd_calm positions s)))
  | unlockPulseExpiry seat => exact claimsOk_unlockPulseExpiry h seat
  | durationThreshold event counter => exact claimsOk_durationThreshold h event counter
  | pendingAdvance => exact claimsOk_pendingAdvance h
  | watchExpiry cue => exact claimsOk_watchExpiry h cue
  | outputFrame => exact claimsOk_outputFrame h
  | fetchComplete samples => exact claimsOk_fetchComplete h samples
  | fetchTimeout => exact claimsOk_fetchTimeout h
  | waitExpiry voice => exact claimsOk_waitExpiry h voice
  | fullResetEnd =>
    exact answers_next (claimsOk_settle_if h
      (claimsOk_inputsAtReset (s := { s with resetHeld := false }) (claimsOk_of_part h rfl)))
  | driveFaultInputReleased => exact answers_next (claimsOk_of_part h rfl)
  | localStopInputReleased => exact answers_next (claimsOk_of_part h rfl)
  | lineTestSample returns => exact answers_next (claimsOk_if (claimsOk_of_part h rfl) h)

/-- Settles O5: the evaluation judges each entry for its own zone, a position change makes room before a forced entry, and
no other command but the resets, which empty the list, writes the claims or the confidence. -/
theorem claimsKept : Obligations.ClaimsKept :=
  kept_of_exec (fun _ _ h => claimsOk_of_part h rfl) claimsOk_exec

end Sys2Proof.ZoneClaims
end

section
/-! The line test (R99 to R101): the sequence of mode LFSR, whose recurrence goes round its loop, and one sample of every
line. -/
namespace Sys2Proof.RestraintMonitor
open Sys2Proof.Machine Sys2Proof.Safety

/-! ## The sequence (R100) -/

theorem lfsrFrom_length (n : Nat) (w : List Bool) : (lfsrFrom n w).length = n := by
  induction n generalizing w with
  | zero => rfl
  | succ n ih => exact congrArg (· + 1) (ih _)

theorem lfsrSequence_length : lfsrSequence.length = 127 := by
  rw [lfsrSequence, List.length_append, List.length_replicate, lfsrFrom_length]

/-- R100: behind any seven bits `a` to `g`, each further bit is the exclusive-or of those 1 and 7 before it. -/
theorem lfsrFrom_recurrence (n : Nat) (a b c d e f g : Bool) {j : Nat} (hj : j < n) :
    let bits := [a, b, c, d, e, f, g] ++ lfsrFrom n [g, f, e, d, c, b, a]
    bits.getD (j + 7) false = (bits.getD (j + 6) false ^^ bits.getD j false) := by
  induction n generalizing a b c d e f g j with
  | zero => exact absurd hj (Nat.not_lt_zero j)
  | succ n ih =>
    cases j with
    | zero => rfl
    | succ j => exact ih b c d e f g (g ^^ a) (Nat.lt_of_succ_lt_succ hj)

theorem lfsrSequence_recurrence {j : Nat} (hj : j < 120) :
    lfsrSequence.getD (j + 7) false = (lfsrSequence.getD (j + 6) false ^^ lfsrSequence.getD j false) :=
  lfsrFrom_recurrence 120 true true true true true true true hj

/-- R100: the sequence repeated without end. -/
def lfsrBit (j : Nat) : Bool := lfsrSequence.getD (j % 127) false

theorem lfsrBit_of_lt {j : Nat} (hj : j < 127) : lfsrBit j = lfsrSequence.getD j false := by
  rw [lfsrBit, Nat.mod_eq_of_lt hj]

theorem lfsrBit_mod_add (j k : Nat) : lfsrBit (j % 127 + k) = lfsrBit (j + k) := by
  rw [lfsrBit, lfsrBit, Nat.mod_add_mod]

/-- The seven places whose recurrence reads across the loop's end. -/
theorem lfsrBit_recurrence_at_end :
    ∀ i, i < 7 → lfsrBit (120 + i + 7) = (lfsrBit (120 + i + 6) ^^ lfsrBit (120 + i)) := by decide +kernel

/-- R100: the recurrence holds all round the loop. -/
theorem lfsrBit_recurrence (j : Nat) : lfsrBit (j + 7) = (lfsrBit (j + 6) ^^ lfsrBit j) := by
  suffices h : ∀ k, k < 127 → lfsrBit (k + 7) = (lfsrBit (k + 6) ^^ lfsrBit (k + 0)) by
    have hmod := h (j % 127) (Nat.mod_lt j (by decide))
    rwa [lfsrBit_mod_add, lfsrBit_mod_add, lfsrBit_mod_add] at hmod
  intro k hk
  by_cases hlt : k < 120
  · rw [lfsrBit_of_lt (by omega), lfsrBit_of_lt (by omega), lfsrBit_of_lt (by omega)]
    exact lfsrSequence_recurrence hlt
  · obtain ⟨i, rfl⟩ := Nat.exists_eq_add_of_le (Nat.not_lt.mp hlt)
    exact lfsrBit_recurrence_at_end i (by omega)

/-- R100: seven 1 bits are followed by a 0. -/
theorem lfsrBit_no_eight_ones (start : Nat) : ∃ i, i < 8 ∧ lfsrBit (start + i) = false := by
  by_contra hn
  have hones : ∀ i, i < 8 → lfsrBit (start + i) = true := by simpa using hn
  have hnext := lfsrBit_recurrence start
  rw [hones 7 (by decide), hones 6 (by decide), show lfsrBit start = true from hones 0 (by decide)] at hnext
  exact absurd hnext (by decide)

/-- Seven 0 bits would be followed by 0 bits without end. -/
theorem lfsrBit_zeros {start : Nat} (h : ∀ i, i < 7 → lfsrBit (start + i) = false) (i : Nat) :
    lfsrBit (start + i) = false := by
  induction i using Nat.strong_induction_on with
  | _ i ih =>
    by_cases hi : i < 7
    · exact h i hi
    · obtain ⟨k, rfl⟩ := Nat.exists_eq_add_of_le' (Nat.not_lt.mp hi)
      have hnext := lfsrBit_recurrence (start + k)
      rwa [Nat.add_assoc, Nat.add_assoc, ih (k + 6) (by omega), ih k (by omega)] at hnext

/-- R100: no run of seven 0 bits, since the bit that begins the loop is a 1. -/
theorem lfsrBit_no_seven_zeros {start : Nat} (hs : start < 127) : ∃ i, i < 7 ∧ lfsrBit (start + i) = true := by
  by_contra hn
  have hzeros : ∀ i, i < 7 → lfsrBit (start + i) = false := by simpa using hn
  have hfirst := lfsrBit_zeros hzeros (127 - start)
  rw [Nat.add_sub_of_le (Nat.le_of_lt hs)] at hfirst
  exact absurd hfirst (by decide)

/-! ## One sample (R99, R101) -/

theorem driveBit_lfsr {c : Settings} (h : c.testMode = .lfsr) (k n : Nat) :
    driveBit c k n = lfsrSequence.getD ((n + 10 * k) % 127) false := by rw [driveBit, h]

theorem driveBit_fixed {c : Settings} (h : c.testMode = .fixed) (k n : Nat) :
    driveBit c k n = c.fixedPattern.getLsbD (15 - n % 16) := by rw [driveBit, h]

theorem driveBit_off {c : Settings} (h : c.testMode = .off) (k n : Nat) : driveBit c k n = true := by rw [driveBit, h]

/-- R99: the lines of a seat are driven when it is used. -/
theorem lineDriven_of_seat {seats : List Seat} {k : Nat} {q : Seat} (h : seats[k / 2]? = some q) :
    lineDriven seats k = (q.state != .unused) := by
  rw [lineDriven, h]
  rfl

theorem takeSample_line {s : State} {k : Nat} {l : Line} (h : s.restraint.lines[k]? = some l) (returns : BitVec 12) :
    (takeSample returns s).restraint.lines[k]? = some (if lineDriven s.restraint.seats k then
      l.sample (driveBit s.settings k s.restraint.n) (returns.getLsbD k) else { l with drive := false }) := by
  simp [takeSample, List.getElem?_zipIdx, h]

theorem exec_lineTestSample_running {s : State} (h : s.restraint.running = true) (returns : BitVec 12) :
    exec (.lineTestSample returns) s = .next (takeSample returns s) := congrArg _ (if_pos h)

theorem exec_lineTestSample_stopped {s : State} (h : s.restraint.running = false) (returns : BitVec 12) :
    exec (.lineTestSample returns) s = .next s := congrArg _ (if_neg (by rw [h]; decide))

/-- Settles O46: the recurrence carries the sequence round its loop and bounds its runs, and a sample gives each line its
mode's bit. -/
theorem lineSampled : Obligations.LineSampled := by
  refine ⟨⟨lfsrSequence_length, by decide, fun j hlow hhigh => ?_, fun start hs =>
    ⟨lfsrBit_no_seven_zeros hs, lfsrBit_no_eight_ones start⟩⟩, fun s returns =>
    ⟨fun hr => exec_lineTestSample_stopped hr returns, fun hr => ?_⟩⟩
  · obtain ⟨i, rfl⟩ := Nat.exists_eq_add_of_le' hlow
    exact lfsrSequence_recurrence (by omega)
  · refine ⟨takeSample returns s, exec_lineTestSample_running hr returns, rfl, by simp [takeSample],
      fun k l q hl hq => ⟨fun hu => ?_, fun hu => ?_, fun hm => driveBit_lfsr hm k _, fun hm => driveBit_fixed hm k _,
        fun hm => driveBit_off hm k _⟩⟩
    · rw [takeSample_line hl, lineDriven_of_seat hq, if_pos (bne_iff_ne.mpr hu)]
      rfl
    · rw [takeSample_line hl, lineDriven_of_seat hq, hu]
      rfl

end Sys2Proof.RestraintMonitor
end

section
/-! How one used seat's state follows its readings (R104 to R109, R114, R116, Table 6.5): which of the four cases of a window
applies, and Table 6.5 state by state for a seat whose fault runs have not run out. -/
namespace Sys2Proof.RestraintMonitor
open Sys2Proof.Machine Sys2Proof.Safety

/-! ## The reading taken (R104, R105) -/

/-- The seat that has taken the position code and whose fault runs the reading has moved. -/
def readSeat (r : Reading) (code : Nat) (q : Seat) : Seat := Seat.runs r { q with code := some code }

@[simp] theorem readSeat_state (r : Reading) (code : Nat) (q : Seat) : (readSeat r code q).state = q.state := by
  cases r <;> rfl
@[simp] theorem readSeat_code (r : Reading) (code : Nat) (q : Seat) : (readSeat r code q).code = some code := by
  cases r <;> rfl
@[simp] theorem readSeat_verifyRun (r : Reading) (code : Nat) (q : Seat) :
    (readSeat r code q).verifyRun = q.verifyRun := by cases r <;> rfl
@[simp] theorem readSeat_reference (r : Reading) (code : Nat) (q : Seat) :
    (readSeat r code q).reference = q.reference := by cases r <;> rfl
@[simp] theorem readSeat_solenoid (r : Reading) (code : Nat) (q : Seat) :
    (readSeat r code q).solenoid = q.solenoid := by cases r <;> rfl
@[simp] theorem readSeat_pulse (r : Reading) (code : Nat) (q : Seat) : (readSeat r code q).pulse = q.pulse := by
  cases r <;> rfl

/-- R104: a fault reading adds 1 to its own run and clears the others; any other reading clears all three. -/
theorem readSeat_counts (r : Reading) (code : Nat) (q : Seat) :
    (readSeat r code q).disagreeRun = (if r = .disagree then q.disagreeRun + 1 else 0)
      ∧ (readSeat r code q).mismatchRun = (if r = .mismatch then q.mismatchRun + 1 else 0)
      ∧ (readSeat r code q).lowRun = (if r = .lockedLow then q.lowRun + 1 else 0) := by
  cases r <;> exact ⟨rfl, rfl, rfl⟩

/-- R105: the reading is the third in a row of a fault run. -/
def RunsOut (r : Reading) (q : Seat) : Prop :=
  (r = .disagree ∧ 2 ≤ q.disagreeRun) ∨ (r = .mismatch ∧ 2 ≤ q.mismatchRun) ∨ (r = .lockedLow ∧ 2 ≤ q.lowRun)

theorem runOut_readSeat_iff (r : Reading) (code : Nat) (q : Seat) :
    (readSeat r code q).runOut = true ↔ RunsOut r q := by
  obtain ⟨hd, hm, hl⟩ := readSeat_counts r code q
  rw [Seat.runOut, hd, hm, hl]
  cases r <;> simp [RunsOut]

/-! ## The four cases of a window -/

section
variable {c : Settings} {r : Reading} {code : Nat} {q : Seat}

/-- R109: a seat in FAULT takes the position code alone. -/
theorem seatStep_fault (h : q.state = .fault) : seatStep c r code q = { q with code := some code } := by
  simp [seatStep, h]

/-- R109: the window that decides a freed seat. -/
theorem seatStep_released (hu : q.state ≠ .unused) (hf : q.state ≠ .fault) (hr : q.releaseCheck = true) :
    seatStep c r code q = releaseStepSeat r { q with code := some code } := by
  simp [seatStep, hu, hf, hr]

theorem seatStep_unreleased (hu : q.state ≠ .unused) (hf : q.state ≠ .fault) (hr : q.releaseCheck = false) :
    seatStep c r code q
      = if (readSeat r code q).runOut then (readSeat r code q).toFault else stateStep c r code (readSeat r code q) := by
  simp [seatStep, hu, hf, hr, readSeat]

/-- R105: a third fault reading in a row. -/
theorem seatStep_runsOut (hu : q.state ≠ .unused) (hf : q.state ≠ .fault) (hr : q.releaseCheck = false)
    (ho : RunsOut r q) : seatStep c r code q = (readSeat r code q).toFault := by
  rw [seatStep_unreleased hu hf hr]
  exact if_pos ((runOut_readSeat_iff r code q).mpr ho)

/-- Table 6.5 decides while no fault run has run out. -/
theorem seatStep_stateStep (hu : q.state ≠ .unused) (hf : q.state ≠ .fault) (hr : q.releaseCheck = false)
    (ho : ¬ RunsOut r q) : seatStep c r code q = stateStep c r code (readSeat r code q) := by
  rw [seatStep_unreleased hu hf hr]
  exact if_neg (mt (runOut_readSeat_iff r code q).mp ho)

/-! ## Table 6.5, state by state -/

theorem stateStep_opened (h : q.state = .opened) :
    stateStep c r code q = if r = .lockedHigh then { q with state := .locked, verifyRun := 1 } else q := by
  rw [stateStep, h]

theorem stateStep_locked (h : q.state = .locked) : stateStep c r code q = lockedStep c r code q := by
  rw [stateStep, h]

theorem stateStep_verified (h : q.state = .verified) : stateStep c r code q
    = if r = .unlocked then { q with state := .opened, reference := none, verifyRun := 0 } else q := by
  rw [stateStep, h]

theorem stateStep_energised (h : q.state = .unlocking) (hs : q.solenoid = true) : stateStep c r code q
    = if r = .unlocked then { q with state := .opened, solenoid := false, pulse := none } else q := by
  rw [stateStep, h]
  exact if_pos hs

theorem stateStep_withdrawn (h : q.state = .unlocking) (hs : q.solenoid = false) : stateStep c r code q
    = if r = .lockedHigh then { q with state := .locked, verifyRun := 1 } else { q with state := .opened } := by
  rw [stateStep, h]
  exact if_neg (by rw [hs]; decide)

theorem lockedStep_unlocked (q : Seat) : lockedStep c .unlocked code q = { q with state := .opened, verifyRun := 0 } := rfl

/-- R106: a reading that neither opens a LOCKED seat nor counts ends its verify run. -/
theorem lockedStep_broken (h1 : r ≠ .unlocked) (h2 : r ≠ .lockedHigh) (q : Seat) :
    lockedStep c r code q = { q with verifyRun := 0 } := by
  cases r
  case lockedHigh => exact absurd rfl h2
  case unlocked => exact absurd rfl h1
  all_goals rfl

theorem lockedStep_off (h : c.testMode = .off) (q : Seat) :
    lockedStep c .lockedHigh code q = { q with verifyRun := min 188 (q.verifyRun + 1) } := by
  rw [lockedStep, h]
  rfl

theorem lockedStep_counted (h : c.testMode ≠ .off) (q : Seat) : lockedStep c .lockedHigh code q
    = if c.verifyTime ≤ 16 * (q.verifyRun + 1) then
        { q with state := .verified, verifyRun := q.verifyRun + 1, reference := some code }
      else { q with verifyRun := q.verifyRun + 1 } := by
  cases hm : c.testMode
  case off => exact absurd hm h
  all_goals rw [lockedStep, hm]

theorem lockedStep_verifies (h : c.testMode ≠ .off) (ht : c.verifyTime ≤ 16 * (q.verifyRun + 1)) :
    lockedStep c .lockedHigh code q
      = { q with state := .verified, verifyRun := q.verifyRun + 1, reference := some code } := by
  rw [lockedStep_counted h, if_pos ht]

/-- A LOCKED seat becomes VERIFIED by the verify time alone, and never enters FAULT here. -/
theorem lockedStep_state (h : q.state = .locked) : (lockedStep c r code q).state ≠ .fault
    ∧ ((lockedStep c r code q).state = .verified
      ↔ r = .lockedHigh ∧ c.testMode ≠ .off ∧ c.verifyTime ≤ 16 * (q.verifyRun + 1)) := by
  by_cases hhigh : r = .lockedHigh
  · subst hhigh
    by_cases hm : c.testMode = .off
    · simp [lockedStep_off hm, h, hm]
    · rw [lockedStep_counted hm]
      split_ifs with ht <;> simp [h, hm, ht]
  · by_cases hun : r = .unlocked
    · simp [hun, lockedStep_unlocked]
    · simp [lockedStep_broken hun hhigh, h, hhigh]

theorem lockedStep_counts (q : Seat) : (lockedStep c r code q).disagreeRun = q.disagreeRun
    ∧ (lockedStep c r code q).mismatchRun = q.mismatchRun ∧ (lockedStep c r code q).lowRun = q.lowRun
    ∧ (lockedStep c r code q).code = q.code := by
  unfold lockedStep
  split
  · split
    · exact ⟨rfl, rfl, rfl, rfl⟩
    all_goals split <;> exact ⟨rfl, rfl, rfl, rfl⟩
  all_goals exact ⟨rfl, rfl, rfl, rfl⟩

/-- Table 6.5 leaves the fault runs and the position code as the reading made them. -/
theorem stateStep_counts (q : Seat) : (stateStep c r code q).disagreeRun = q.disagreeRun
    ∧ (stateStep c r code q).mismatchRun = q.mismatchRun ∧ (stateStep c r code q).lowRun = q.lowRun
    ∧ (stateStep c r code q).code = q.code := by
  unfold stateStep
  split
  case h_2 => exact lockedStep_counts q
  case h_1 | h_3 => split <;> exact ⟨rfl, rfl, rfl, rfl⟩
  case h_4 => split_ifs <;> exact ⟨rfl, rfl, rfl, rfl⟩
  case h_5 | h_6 => exact ⟨rfl, rfl, rfl, rfl⟩

/-- R106, R107: what Table 6.5 makes VERIFIED; it makes no seat FAULT. -/
theorem stateStep_state (hf : q.state ≠ .fault) : (stateStep c r code q).state ≠ .fault
    ∧ ((stateStep c r code q).state = .verified ↔ (q.state = .verified ∧ r ≠ .unlocked)
      ∨ (q.state = .locked ∧ r = .lockedHigh ∧ c.testMode ≠ .off ∧ c.verifyTime ≤ 16 * (q.verifyRun + 1))) := by
  cases h : q.state
  case unused => simp [stateStep, h]
  case fault => exact absurd h hf
  case opened => rw [stateStep_opened h]; split_ifs <;> simp [h]
  case locked => simpa [stateStep_locked h] using lockedStep_state h
  case verified => rw [stateStep_verified h]; split_ifs with hr <;> simp [h, hr]
  case unlocking =>
    cases hs : q.solenoid
    · rw [stateStep_withdrawn h hs]; split_ifs <;> simp
    · rw [stateStep_energised h hs]; split_ifs <;> simp [h]

/-! ## The clauses of Table 6.5 -/

/-- R104: every used seat takes the position code, whatever the reading. -/
theorem seatStep_code (hu : q.state ≠ .unused) : (seatStep c r code q).code = some code := by
  by_cases hf : q.state = .fault
  · rw [seatStep_fault hf]
  cases hr : q.releaseCheck
  · by_cases ho : RunsOut r q
    · rw [seatStep_runsOut hu hf hr ho]
      exact readSeat_code r code q
    · obtain ⟨-, -, -, hcode⟩ := stateStep_counts (c := c) (r := r) (code := code) (readSeat r code q)
      rw [seatStep_stateStep hu hf hr ho, hcode]
      exact readSeat_code r code q
  · rw [seatStep_released hu hf hr]
    cases r <;> rfl

/-- R109: a freed seat is decided by its next reading alone. -/
theorem seatStep_release (hu : q.state ≠ .unused) (hf : q.state ≠ .fault) (hr : q.releaseCheck = true) :
    ((seatStep c r code q).state = .fault ↔ r ≠ .lockedHigh ∧ r ≠ .unlocked)
      ∧ (seatStep c r code q).releaseCheck = false ∧ (r = .unlocked → (seatStep c r code q).state = .opened)
      ∧ (r = .lockedHigh → (seatStep c r code q).state = .locked ∧ (seatStep c r code q).verifyRun = 1) := by
  rw [seatStep_released hu hf hr]
  cases r <;> simp [releaseStepSeat, Seat.toFault]

/-- R105: without a release check a seat enters FAULT by its fault runs alone. -/
theorem seatStep_fault_iff (hu : q.state ≠ .unused) (hf : q.state ≠ .fault) (hr : q.releaseCheck = false) :
    (seatStep c r code q).state = .fault ↔ RunsOut r q := by
  by_cases ho : RunsOut r q
  · rw [seatStep_runsOut hu hf hr ho]
    exact iff_of_true rfl ho
  · rw [seatStep_stateStep hu hf hr ho]
    exact iff_of_false (stateStep_state (by rwa [readSeat_state])).1 ho

/-- R105: what the entry into FAULT clears. -/
theorem toFault_clears (q : Seat) : q.toFault.disagreeRun = 0 ∧ q.toFault.mismatchRun = 0 ∧ q.toFault.lowRun = 0
    ∧ q.toFault.verifyRun = 0 ∧ q.toFault.reference = none ∧ q.toFault.releaseCheck = false
    ∧ q.toFault.solenoid = false ∧ q.toFault.pulse = none := ⟨rfl, rfl, rfl, rfl, rfl, rfl, rfl, rfl⟩

/-- A seat that enters FAULT does so by R105's entry, from its runs or from its release check. -/
theorem seatStep_enters_fault (hu : q.state ≠ .unused) (hf : q.state ≠ .fault)
    (hw : (seatStep c r code q).state = .fault) : ∃ p : Seat, seatStep c r code q = p.toFault := by
  cases hr : q.releaseCheck
  · exact ⟨_, seatStep_runsOut hu hf hr ((seatStep_fault_iff hu hf hr).mp hw)⟩
  · obtain ⟨hhigh, hun⟩ := (seatStep_release hu hf hr).1.mp hw
    rw [seatStep_released hu hf hr]
    cases r
    case lockedHigh => exact absurd rfl hhigh
    case unlocked => exact absurd rfl hun
    all_goals exact ⟨_, rfl⟩

/-- R106, R107: when a seat is VERIFIED after a window. -/
theorem seatStep_verified_iff (hu : q.state ≠ .unused) (hr : q.releaseCheck = false) :
    (seatStep c r code q).state = .verified ↔ (q.state = .verified ∧ r ≠ .unlocked ∧ ¬ RunsOut r q)
      ∨ (q.state = .locked ∧ r = .lockedHigh ∧ c.testMode ≠ .off ∧ c.verifyTime ≤ 16 * (q.verifyRun + 1)) := by
  by_cases hf : q.state = .fault
  · simp [seatStep_fault hf, hf]
  by_cases ho : RunsOut r q
  · have hbad : r ≠ .lockedHigh := by
      rintro rfl
      simp [RunsOut] at ho
    simp [seatStep_runsOut hu hf hr ho, Seat.toFault, ho, hbad]
  · rw [seatStep_stateStep hu hf hr ho, (stateStep_state (by rwa [readSeat_state])).2]
    simp [ho]

end

/-- Settles O48: a window's four cases, and Table 6.5 read at the seat whose runs the reading has moved. -/
theorem seatStates : Obligations.SeatStates := by
  intro c r code q hu
  refine ⟨seatStep_fault, seatStep_release hu, seatStep_fault_iff hu, fun hf hw => ?_, seatStep_verified_iff hu,
    fun hl hhigh hr hm ht => ?_, fun hf hr (ho : ¬ RunsOut r q) => ?_⟩
  · obtain ⟨p, hp⟩ := seatStep_enters_fault hu hf hw
    rw [hp]
    exact toFault_clears p
  · have ho : ¬ RunsOut r q := by simp [RunsOut, hhigh]
    have hstate : (readSeat r code q).state = .locked := (readSeat_state r code q).trans hl
    rw [seatStep_stateStep hu (by rw [hl]; decide) hr ho, stateStep_locked hstate, hhigh,
      lockedStep_verifies hm (by rwa [readSeat_verifyRun])]
  · rw [seatStep_stateStep hu hf hr ho]
    have hstate : ∀ {st}, q.state = st → (readSeat r code q).state = st := (readSeat_state r code q).trans
    have hsolenoid : ∀ {b}, q.solenoid = b → (readSeat r code q).solenoid = b := (readSeat_solenoid r code q).trans
    obtain ⟨hd, hm, hl, -⟩ := stateStep_counts (c := c) (r := r) (code := code) (readSeat r code q)
    rw [hd, hm, hl]
    refine ⟨readSeat_counts r code q, fun h he => ?_, fun h he => ?_, fun h he => ?_, fun h hne hhigh => ?_,
      fun h he hmode => ?_, fun h he hmode => ?_, fun h he => ?_, fun h he => ?_, fun h hs he => ?_, fun h hs he => ?_,
      fun h hs he => ?_, fun h hs he => ?_⟩
    · rw [stateStep_opened (hstate h), if_pos he]
      exact ⟨rfl, rfl⟩
    · rw [stateStep_opened (hstate h), if_neg he]
      exact hstate h
    · rw [stateStep_locked (hstate h), he, lockedStep_unlocked]
      exact ⟨rfl, rfl⟩
    · rw [stateStep_locked (hstate h), lockedStep_broken hne hhigh]
      exact ⟨hstate h, rfl⟩
    · rw [stateStep_locked (hstate h), he, lockedStep_counted hmode, readSeat_verifyRun]
      split_ifs with ht
      · exact ⟨rfl, fun hlt => absurd ht (Nat.not_le.mpr hlt)⟩
      · exact ⟨rfl, fun _ => (readSeat_state _ code q).trans h⟩
    · rw [stateStep_locked (hstate h), he, lockedStep_off hmode, readSeat_verifyRun]
      exact ⟨rfl, (readSeat_state _ code q).trans h⟩
    · rw [stateStep_verified (hstate h), if_pos he]
      exact ⟨rfl, rfl, rfl⟩
    · rw [stateStep_verified (hstate h), if_neg he]
      exact ⟨readSeat_reference r code q, readSeat_verifyRun r code q⟩
    · rw [stateStep_energised (hstate h) (hsolenoid hs), if_pos he]
      exact ⟨rfl, rfl, rfl⟩
    · rw [stateStep_energised (hstate h) (hsolenoid hs), if_neg he]
      exact ⟨hstate h, hsolenoid hs, readSeat_pulse r code q⟩
    · rw [stateStep_withdrawn (hstate h) (hsolenoid hs), if_pos he]
      exact ⟨rfl, rfl⟩
    · rw [stateStep_withdrawn (hstate h) (hsolenoid hs), if_neg he]

end Sys2Proof.RestraintMonitor
end

section
/-! WINDOW_END (R99, R102 to R105, R108, R111, R112) and UNLOCK_PULSE_EXPIRY (R115). -/
namespace Sys2Proof.RestraintMonitor
open Sys2Proof.Machine Sys2Proof.Safety Sys2Proof.RideLink

/-! ## What a window writes (R102, R103) -/

theorem judge_eq (l : Line) : l.judge =
    { l with
      judgement := some (judgeWindow l.driveWord l.returnWord)
      mismatches := if judgeWindow l.driveWord l.returnWord = .mismatch then min 255 (l.mismatches + 1) else l.mismatches
      capture := if judgeWindow l.driveWord l.returnWord = .mismatch then some (l.capture.getD (l.driveWord, l.returnWord))
        else l.capture } := by
  rw [Line.judge]
  cases judgeWindow l.driveWord l.returnWord <;> rfl

theorem linesAfter_length (seats : List Seat) (lines : List Line) : (linesAfter seats lines).length = lines.length := by
  simp [linesAfter]

theorem linesAfter_getElem? {lines : List Line} {k : Nat} {l : Line} (h : lines[k]? = some l) (seats : List Seat) :
    (linesAfter seats lines)[k]? = some (if lineDriven seats k then l.judge else l) := by
  simp [linesAfter, List.getElem?_zipIdx, h]

section
variable {c : Settings} {positions : List Byte} {lines : List Line} {seats : List Seat} {i : Nat} {q : Seat}

theorem seatsAfter_used {a b : Line} (hq : seats[i]? = some q) (ha : lines[2 * i]? = some a)
    (hb : lines[2 * i + 1]? = some b) (hu : q.state ≠ .unused) :
    (seatsAfter c positions lines seats)[i]? = some (seatAfter c (byteAt positions i) a b q) := by
  simp [seatsAfter, List.getElem?_zipIdx, hq, ha, hb, hu]

theorem seatsAfter_unused (hq : seats[i]? = some q) (hu : q.state = .unused) :
    (seatsAfter c positions lines seats)[i]? = some q := by
  simp only [seatsAfter, List.getElem?_map, List.getElem?_zipIdx, hq, Option.map_some, Nat.zero_add, hu, if_true]
  split <;> rfl

end

/-! ## What a window reports (R111, R112) -/

/-- What one of a list's operations latches stays latched, where each of them is `Calm`. -/
theorem latched_foldl {α : Type} {f : State → α → State} (hf : ∀ u x, Calm u (f u x)) {id : Nat} {x : α} {xs : List α}
    (hx : x ∈ xs) {s : State} (hl : ∀ u, Calm s u → Latched (f u x) id) : Latched (xs.foldl f s) id := by
  induction xs generalizing s with
  | nil => exact absurd hx List.not_mem_nil
  | cons y ys ih =>
    rcases List.mem_cons.mp hx with rfl | hmem
    · exact (hl s (Calm.refl s)).aside (Calm.foldl f hf ys _).toAside
    · exact ih hmem fun u hu => hl u ((hf s y).trans hu)

theorem seatOccurrences_fault {before after : SeatState} (hb : before ≠ .fault) (ha : after = .fault) (moving : Bool)
    (s : State) : seatOccurrences moving before after s = latch 15 s := if_pos ⟨hb, ha⟩

theorem seatOccurrences_open {before after : SeatState} (hb : before = .verified) (ha : after = .opened) (s : State) :
    seatOccurrences true before after s = latch 14 s := by
  subst hb ha
  rfl

section
variable {s : State} {positions : List Byte} {i id : Nat} {q : Seat} {a b : Line} (ht : TablesOk s)
  (hq : s.restraint.seats[i]? = some q) (ha : s.restraint.lines[2 * i]? = some a)
  (hb : s.restraint.lines[2 * i + 1]? = some b) (hu : q.state ≠ .unused)
include ht hq ha hb hu

/-- What the change of a used seat's state latches stands after the window. -/
theorem windowEnd_latched (hid : 1 ≤ id) (hle : id ≤ 25)
    (ho : ∀ u, seatOccurrences s.motion.state.moving q.state (seatAfter s.settings (byteAt positions i) a b q).state u
      = latch id u) : Latched (windowEnd positions s) id := by
  have hi : i < 6 := ht.seats ▸ (List.getElem?_eq_some_iff.mp hq).1
  refine latched_foldl (seatReport_calm _ _ _ _) (List.mem_range.mpr hi) fun u hau => ?_
  rw [seatReport, hq, ha, hb]
  dsimp only
  rw [if_neg hu, ho]
  refine latch_latched id _ hid ?_
  have hevents := (mismatchEvents_calm (judgeWindow a.driveWord a.returnWord) (judgeWindow b.driveWord b.returnWord) u).trans
    (creepEvent_calm (i + 1) q.creep (seatAfter s.settings (byteAt positions i) a b q).creep _)
  rw [(hau.trans hevents).grows.length, show (judgeSeats positions s).cond.records.length = 25 from ht.records]
  exact hle

end

/-! ## WINDOW_END (R99) -/

theorem exec_windowEnd {s : State} (hr : s.restraint.running = true) (hf : s.restraint.fill = 16)
    (positions : List Byte) : exec (.windowEnd positions) s = .next (settle (windowEnd positions s)) :=
  congrArg _ (if_pos (by rw [hr, hf]; rfl))

/-- The seats may be named as they stand after the side effects: `Aside` reads them for a withdrawal alone (R116). -/
theorem aside_seatsAfter {s t : State} (h : Aside s t) :
    Aside { s with restraint := { s.restraint with seats := t.restraint.seats } } t :=
  { h with outside := { h.outside with seats := .inl rfl }, sizes := { h.sizes with } }

theorem windowEnd_aside (positions : List Byte) (s : State) :
    Aside (judgeSeats positions s) (settle (windowEnd positions s)) :=
  (windowEnd_calm positions s).toAside.trans (settle_aside _)

/-- A seat behind side effects is as before them, but for its solenoid and pulse. -/
theorem seat_aside {s t : State} (h : Aside s t) {i : Nat} {q : Seat} (hq : s.restraint.seats[i]? = some q) :
    ∃ v, t.restraint.seats[i]? = some v ∧ bareSeat v = bareSeat q := by
  rcases h.outside.seats with e | e
  · exact ⟨q, by rw [e, hq], rfl⟩
  · exact ⟨bareSeat q, by rw [e, List.getElem?_map, hq]; rfl, rfl⟩

/-- Settles O47: a window writes the lines and seats as they stood, and what it reports is aside but for solenoids and
pulses. -/
theorem windowJudged : Obligations.WindowJudged := by
  intro s positions hr hf ht
  have haside := windowEnd_aside positions s
  have hlines : (settle (windowEnd positions s)).restraint.lines = linesAfter s.restraint.seats s.restraint.lines :=
    haside.outside.lines
  refine ⟨_, exec_windowEnd hr hf positions, haside.outside.fill, ?_, fun k l q hl hq => ?_,
    fun i q a b hq ha hb hu => ?_, fun i q hq hu => ?_, ?_⟩
  · rw [hlines, linesAfter_length]
  · rw [hlines, linesAfter_getElem? hl, lineDriven_of_seat hq]
    refine ⟨fun hu => ?_, fun hu => ?_⟩
    · rw [if_pos (bne_iff_ne.mpr hu), judge_eq]
    · rw [hu]
      rfl
  · obtain ⟨v, hv, hbare⟩ := seat_aside haside (seatsAfter_used (c := s.settings) (positions := positions) hq ha hb hu)
    refine ⟨⟨v, hv, ?_⟩, fun hw hne => ?_, fun hw hver hm => ?_⟩
    · simp only [bareSeat, seatAfter, Seat.mk.injEq] at hbare
      obtain ⟨hstate, hcode, hverify, hd, hmis, hlow, href, hcreep, hrel, -, -⟩ := hbare
      exact ⟨hstate, hcode.trans (seatStep_code hu), hverify, hd, hmis, hlow, href, hrel, hcreep⟩
    · exact (windowEnd_latched ht hq ha hb hu (by decide) (by decide)
        (seatOccurrences_fault hne hw _)).aside (settle_aside _)
    · exact (windowEnd_latched ht hq ha hb hu (by decide) (by decide)
        (hm ▸ seatOccurrences_open hver hw)).aside (settle_aside _)
  · exact seat_aside haside (seatsAfter_unused hq hu)
  · rw [hlines]
    exact aside_seatsAfter haside

/-! ## UNLOCK_PULSE_EXPIRY (R115) -/

/-- R115: the pulse of a seat still in UNLOCKING ends. -/
theorem exec_unlockPulseExpiry {s : State} {seat : Nat} {q : Seat} (h1 : 1 ≤ seat)
    (hq : s.restraint.seats[seat - 1]? = some q) {t0 : Nat} (hu : q.state = .unlocking) (hp : q.pulse = some t0)
    (ht : t0 ≤ s.now) :
    exec (.unlockPulseExpiry seat) s = .next (settle (latch 16 (setSeat (seat - 1) q.pulseEnd s))) := by
  show execUnlockPulseExpiry seat s = _
  rw [execUnlockPulseExpiry, if_neg (Nat.one_le_iff_ne_zero.mp h1), hq]
  dsimp only
  rw [hu, hp]
  exact congrArg _ (if_pos ht)

theorem exec_unlockPulseExpiry_none {s : State} {seat : Nat} {q : Seat} (h1 : 1 ≤ seat)
    (hq : s.restraint.seats[seat - 1]? = some q) (h : q.state ≠ .unlocking ∨ q.pulse = none) :
    exec (.unlockPulseExpiry seat) s = .next s := by
  show execUnlockPulseExpiry seat s = _
  rw [execUnlockPulseExpiry, if_neg (Nat.one_le_iff_ne_zero.mp h1), hq]
  dsimp only
  split
  · rename_i hu hp
    rcases h with h | h
    · exact absurd hu h
    · exact nomatch h.symm.trans hp
  · rfl

/-- Settles O49: the seat is written and UNLOCK_FAIL latched, or there is no pulse to end. -/
theorem pulseExpires : Obligations.PulseExpires := by
  intro s seat q h1 hq
  refine ⟨fun t0 hu hp hle ht => ⟨_, exec_unlockPulseExpiry h1 hq hu hp hle, ?_, ?_⟩,
    exec_unlockPulseExpiry_none h1 hq⟩
  · exact latched_settle_latch (by decide) (by decide) ht rfl
  · exact (latch_calm 16 (setSeat (seat - 1) q.pulseEnd s)).toAside.trans (settle_aside _)

end Sys2Proof.RestraintMonitor
end

section
/-! UNLOCK (R113, R114): its checks in their order, the seats it unlocks one after the other, and that it leaves nothing
outstanding. -/
namespace Sys2Proof.RestraintMonitor
open Sys2Proof.Machine Sys2Proof.Safety Sys2Proof.RideLink Sys2Proof.Standing
open Sys2Proof.MotionControl (settle_refuse still_received judged_of_readyMet)

/-! ## The checks (R113) -/

theorem unlockRefusal_wrongState {s : State} (h : s.motion.state ≠ .parked) : unlockRefusal s = some .wrongState :=
  if_pos h

theorem unlockRefusal_moving {s : State} (hm : s.motion.state = .parked) (h : 0 < s.speed) :
    unlockRefusal s = some .moving := by
  rw [unlockRefusal, if_neg (not_not_intro hm), if_pos h]

theorem unlockRefusal_notAtStation {s : State} (hm : s.motion.state = .parked) (hv : s.speed = 0)
    (h : s.inStation = false) : unlockRefusal s = some .notAtStation := by
  rw [unlockRefusal, if_neg (not_not_intro hm), if_neg (by omega), h]
  rfl

theorem unlockRefusal_none {s : State} (hm : s.motion.state = .parked) (hv : s.speed = 0) (h : s.inStation = true) :
    unlockRefusal s = none := by
  rw [unlockRefusal, if_neg (not_not_intro hm), if_neg (by omega), h]
  rfl

theorem exec_unlock {s : State} {source target : Nat} (h : Accepted s .unlock source target) (seats : Byte) :
    exec (.unlock source target seats) s = .next (settle (ownUnlock source seats (received s))) := by
  rw [exec_commandHeader rfl, commandRow_accepted h]
  rfl

theorem exec_unlock_refused {s : State} {source target : Nat} (h : Accepted s .unlock source target) (hs : Still s)
    (seats : Byte) {reason : RefusalReason} (hr : unlockRefusal s = some reason) :
    exec (.unlock source target seats) s = .next (refuse .unlock reason source (received s)) := by
  have hown : ownUnlock source seats (received s) = refuse .unlock reason source (received s) := by
    rw [ownUnlock, show unlockRefusal (received s) = some reason from hr]
  rw [exec_unlock h, hown, settle_refuse hs]

/-! ## The seats (R114) -/

/-- R113, R114: seat i after an UNLOCK that names these seats. -/
def unlockedSeat (named : Byte) (expiry i : Nat) (q : Seat) : Seat :=
  if named.getLsbD i = true ∧ (q.state = .locked ∨ q.state = .verified) then q.unlock expiry else q

/-- A seat that does not end in UNLOCKING was passed over. -/
theorem unlockedSeat_eq {named : Byte} {expiry i : Nat} {q : Seat}
    (h : (unlockedSeat named expiry i q).state ≠ .unlocking) : unlockedSeat named expiry i q = q := by
  unfold unlockedSeat at h ⊢
  split at h
  · exact absurd rfl h
  · rename_i hn
    exact if_neg hn

/-- The state with these seats and these running duration events, all that an UNLOCK writes. -/
def withSeats (qs : List Seat) (ds : List Duration) (s : State) : State :=
  { s with restraint := { s.restraint with seats := qs }, cond := { s.cond with durations := ds } }

/-- One seat's turn writes that seat and ends at most its BAR_CREEP event. -/
theorem unlockSeat_frame (named : Byte) (s : State) (i : Nat) : ∃ ds, unlockSeat named s i
    = withSeats (s.restraint.seats.modify i (unlockedSeat named (s.now + s.settings.unlockPulse) i)) ds s := by
  unfold unlockSeat
  split
  · rename_i hnone
    exact ⟨s.cond.durations, by rw [List.modify_eq_self (List.getElem?_eq_none_iff.mp hnone)]; rfl⟩
  · rename_i q hq
    have hset : s.restraint.seats.modify i (unlockedSeat named (s.now + s.settings.unlockPulse) i)
        = s.restraint.seats.set i (unlockedSeat named (s.now + s.settings.unlockPulse) i q) := by
      rw [List.modify_eq_set_getElem?, hq]
      rfl
    simp only [Bool.and_eq_true, Bool.or_eq_true, decide_eq_true_eq]
    rw [hset, unlockedSeat]
    split_ifs with hc
    · exact ⟨_, rfl⟩
    · obtain ⟨hlt, rfl⟩ := List.getElem?_eq_some_iff.mp hq
      exact ⟨s.cond.durations, by rw [List.set_getElem_self]; rfl⟩

/-- The seats `qs` are `seats` after the turns of the first n. -/
def TurnsTaken (named : Byte) (expiry n : Nat) (seats qs : List Seat) : Prop :=
  ∀ i, qs[i]? = (seats[i]?).map fun q => if i < n then unlockedSeat named expiry i q else q

theorem unlockSeats_frame (named : Byte) (s : State) (n : Nat) : ∃ qs ds,
    (List.range n).foldl (unlockSeat named) s = withSeats qs ds s
    ∧ TurnsTaken named (s.now + s.settings.unlockPulse) n s.restraint.seats qs := by
  induction n with
  | zero => exact ⟨s.restraint.seats, s.cond.durations, rfl, fun i => by simp⟩
  | succ n ih =>
    obtain ⟨qs, ds, hfold, hseats⟩ := ih
    obtain ⟨es, hturn⟩ := unlockSeat_frame named (withSeats qs ds s) n
    refine ⟨qs.modify n (unlockedSeat named (s.now + s.settings.unlockPulse) n), es, ?_, fun i => ?_⟩
    · rw [List.range_succ, List.foldl_append, hfold]
      exact hturn
    · rw [List.getElem?_modify, hseats i]
      cases s.restraint.seats[i]? with
      | none => rfl
      | some q =>
        rcases Nat.lt_trichotomy i n with hlt | rfl | hgt
        · simp [hlt, Nat.lt_succ_of_lt hlt, Nat.ne_of_gt hlt]
        · simp
        · simp [Nat.not_lt.mpr hgt.le, Nat.ne_of_lt hgt, show ¬ i < n + 1 by omega]

/-! ## Nothing is left to judge (R54, R110) -/

/-- R110: in ALL_VERIFIED no used seat is in another state. -/
theorem verified_of_summary {seats : List Seat} (h : summaryOf seats = .allVerified) {q : Seat} (hq : q ∈ seats) :
    q.state = .unused ∨ q.state = .verified := by
  unfold summaryOf at h
  dsimp only at h
  split_ifs at h with _ hall
  by_cases hu : q.state = .unused
  · exact .inl hu
  · exact .inr (of_decide_eq_true (List.all_eq_true.mp hall q (List.mem_filter.mpr ⟨hq, bne_iff_ne.mpr hu⟩)))

/-- R54: an UNLOCK does not bring the READY requirements about: ALL_VERIFIED after it says that no seat was unlocked. -/
theorem readyMet_unlocked {s : State} {named : Byte} {expiry n : Nat} {qs : List Seat} (ds : List Duration)
    (hseats : TurnsTaken named expiry n s.restraint.seats qs)
    (h : (withSeats qs ds s).readyMet = true) : s.readyMet = true := by
  have hsummary : summaryOf qs = .allVerified := by
    simp only [State.readyMet, Bool.and_eq_true, decide_eq_true_eq] at h
    obtain ⟨⟨⟨⟨⟨⟨-, hall⟩, -⟩, -⟩, -⟩, -⟩, -⟩ := h
    exact hall
  have hsame : qs = s.restraint.seats := List.ext_getElem? fun i => by
    have hi := hseats i
    cases hq : s.restraint.seats[i]? with
    | none => rw [hi, hq]; rfl
    | some q =>
      rw [hq, Option.map_some] at hi
      rw [hi]
      split_ifs at hi ⊢ with hlt
      · have hstate := verified_of_summary hsummary (List.mem_of_getElem? hi)
        rw [unlockedSeat_eq (by rcases hstate with e | e <;> rw [e] <;> decide)]
      · rfl
  subst hsame
  exact h

/-- The judgement of PARKED stands after an UNLOCK. -/
theorem still_unlocked {s : State} (h : Still s) (hm : s.motion.state = .parked) {named : Byte} {expiry n : Nat}
    {qs : List Seat} (ds : List Duration)
    (hseats : TurnsTaken named expiry n s.restraint.seats qs) :
    Still (withSeats qs ds s) := by
  have hnot := still_judged h
  rw [Judged, hm] at hnot
  refine (still_iff _).mpr ⟨h.notices, judged_of_readyMet (still_judged h) rfl rfl (fun _ => ?_)
    (fun e => nomatch hm.symm.trans e), (still_granted h).of_eq rfl rfl⟩
  exact Bool.eq_false_iff.mpr fun hmet => Bool.eq_false_iff.mp hnot.2 (readyMet_unlocked ds hseats hmet)

/-! ## UNLOCK (R113) -/

/-- Settles O30: the checks in their order choose the refusal; an UNLOCK taken writes the named seats, and leaves nothing
outstanding, since PARKED is left for READY by verified seats alone. -/
theorem unlockJudged : Obligations.UnlockJudged := by
  intro s source target seats hacc hs
  refine ⟨fun hm => exec_unlock_refused hacc hs seats (unlockRefusal_wrongState hm),
    fun hm hv => exec_unlock_refused hacc hs seats (unlockRefusal_moving hm hv),
    fun hm hv hin => exec_unlock_refused hacc hs seats (unlockRefusal_notAtStation hm hv hin), fun hm hv hin hlen => ?_⟩
  obtain ⟨qs, ds, hfold, hseats⟩ := unlockSeats_frame seats (received s) 6
  have hown : ownUnlock source seats (received s) = (List.range 6).foldl (unlockSeat seats) (received s) := by
    rw [ownUnlock, show unlockRefusal (received s) = none from unlockRefusal_none hm hv hin]
  have hstill : Still (withSeats qs ds (received s)) := still_unlocked (still_received hs) hm ds hseats
  refine ⟨_, by rw [exec_unlock hacc, hown, hfold, hstill.settle], fun i q hi hq => ?_, rfl⟩
  have hseat : qs[i]? = some (unlockedSeat seats (s.now + s.settings.unlockPulse) i q) := by
    rw [hseats i, show (received s).restraint.seats[i]? = some q from hq, Option.map_some, if_pos hi]
    rfl
  refine ⟨fun hn hq => hseat.trans ?_, fun hn => hseat.trans ?_⟩
  · rw [unlockedSeat, if_pos ⟨hn, hq⟩]
    rfl
  · rw [unlockedSeat, if_neg]
    rintro ⟨hnamed, hstate⟩
    rcases hn with hn | ⟨hl, hv⟩
    · exact absurd (hn.symm.trans hnamed) (by decide)
    · exact hstate.elim hl hv

end Sys2Proof.RestraintMonitor
end

section
/-! The tally counters: which counter takes an arrival (R136, Table 7.5), what an arrival makes of each counter (R138, R139),
and the thresholds of the running duration events (R137). -/
namespace Sys2Proof.Tallies
open Sys2Proof.Machine Sys2Proof.Safety

/-! ## The five tests (R136) -/

theorem phase_met_iff (q : Phase) (m : MotionState) : q.met m = true ↔
    (q = .moving → m = .running ∨ m = .holding ∨ m = .stopping)
    ∧ (q = .parked → m = .parked ∨ m = .ready)
    ∧ (q = .stopped → m = .stopped ∨ m = .estop) := by
  cases q with
  | any => simp [Phase.met]
  | moving => cases m <;> simp [Phase.met, MotionState.moving]
  | parked => simp [Phase.met]
  | stopped => simp [Phase.met]

theorem zone_met_iff (q : ZoneQualifier) (s : State) : q.met s = true ↔
    (q = .marked → ∃ r x, s.placed = some (r, x) ∧ r.zoneAt x ≠ 255 ∧ r.marked (r.zoneAt x) = true)
    ∧ (q = .unmarked → ∃ r x, s.placed = some (r, x) ∧ (r.zoneAt x = 255 ∨ r.marked (r.zoneAt x) = false)) := by
  unfold ZoneQualifier.met
  cases q with
  | any => simp
  | marked => rcases s.placed with _ | ⟨r, x⟩ <;> simp
  | unmarked => rcases s.placed with _ | ⟨r, x⟩ <;> simp

theorem takes_iff (c : Counter) (event : TallyEvent) (s : State) : c.takes event s = true ↔
    event ≠ .none ∧ c.event = event ∧ s.cond.frozen = false ∧ c.tripped = false ∧ (c.chained = false ∨ c.armed = true)
    ∧ c.phase.met s.motion.state = true ∧ c.zone.met s = true := by
  simp only [Counter.takes, Bool.and_eq_true, Bool.or_eq_true, Bool.not_eq_true', bne_iff_ne, decide_eq_true_eq, and_assoc]

/-! ## What an arrival makes of a counter (R136, R138, R139) -/

/-- R138: a counter after these trips; the trip of counter 1 arms a chained one. -/
def armedBy (trips : List Nat) (c : Counter) : Counter :=
  if trips.contains 1 && c.chained then { c with armed := true } else c

@[simp] theorem armedBy_value (trips : List Nat) (c : Counter) : (armedBy trips c).value = c.value := by
  unfold armedBy
  split <;> rfl

@[simp] theorem armedBy_tripped (trips : List Nat) (c : Counter) : (armedBy trips c).tripped = c.tripped := by
  unfold armedBy
  split <;> rfl

theorem armedBy_armed_iff (trips : List Nat) (c : Counter) :
    (armedBy trips c).armed = true ↔ c.armed = true ∨ (c.chained = true ∧ 1 ∈ trips) := by
  unfold armedBy
  split <;> simp_all [and_comm]

/-- R136: every counter is judged against the state before the arrival. -/
theorem tallyCore_counter (offered : Nat → Bool) (event : TallyEvent) (amount : Nat) {s : State} {k : Nat} {c : Counter}
    (h : s.cond.counters[k]? = some c) : (tallyCore offered event amount s).1.cond.counters[k]? = some
      (armedBy (tallyCore offered event amount s).2
        (if offered (k + 1) && c.takes event s then c.add amount else c)) := by
  show ((s.cond.counters.zipIdx.map _).map (armedBy _))[k]? = _
  rw [List.getElem?_map, List.getElem?_map, List.getElem?_zipIdx, h, Option.map_some, Option.map_some, Option.map_some,
    Nat.zero_add]
  rfl

/-- R139: the counters that an arrival trips. -/
theorem mem_tallyCore_trips (offered : Nat → Bool) (event : TallyEvent) (amount : Nat) {s : State} {k : Nat} {c : Counter}
    (h : s.cond.counters[k]? = some c) : k + 1 ∈ (tallyCore offered event amount s).2 ↔
      offered (k + 1) = true ∧ c.takes event s = true ∧ c.limit ≤ c.value + amount := by
  simp [tallyCore, Counter.add, List.mem_zipIdx_iff_getElem?, h, and_assoc]

/-- Settles O51: the five tests one by one, and the counter after an arrival that it takes and one that it does not. -/
theorem tallyArrival : Obligations.TallyArrival := by
  intro s event amount k c hc
  refine ⟨?_, _, tallyCore_counter (fun _ => true) event amount hc, fun ht => ?_, fun ht => ?_, ?_, ?_⟩
  · rw [takes_iff, phase_met_iff, zone_met_iff]
    simp only [and_assoc]
  · simp [ht, Counter.add]
  · simp [ht]
  · rw [mem_tallyCore_trips _ _ _ hc]
    exact and_iff_right rfl
  · rw [armedBy_armed_iff]
    split <;> rfl

/-! ## Thresholds of duration events (R137) -/

theorem duration_key {s : State} {key : DurationKey} {d : Duration} (h : s.duration key = some d) : d.key = key := by
  simpa using List.find?_some h

theorem thresholdDue_iff {s : State} {d : Duration} {counter : Nat} {c : Counter} (h : 1 ≤ counter)
    (hc : s.cond.counters[counter - 1]? = some c) : thresholdDue s d counter = true ↔
      c.event = durationEvent d.key ∧ d.passed.getD (counter - 1) true = false ∧ 4 * c.threshold ≤ s.now - d.start := by
  simp only [thresholdDue, hc, Bool.and_eq_true, Bool.not_eq_true', decide_eq_true_eq, and_assoc]
  exact and_iff_right h

theorem exec_durationThreshold {s : State} {key : DurationKey} {counter : Nat} {d : Duration}
    (h : s.duration key = some d) : exec (.durationThreshold key counter) s
      = .next (if thresholdDue s d counter then settle (offerThreshold key counter s) else s) := by
  show Host.Outcome.next (match s.duration key with | none => s | some d => _) = _
  rw [h]

/-- R137: an event with the mark of a counter set, where it is the one of this key. -/
def marked (key : DurationKey) (counter : Nat) (d : Duration) : Duration :=
  if d.key = key then { d with passed := d.passed.set (counter - 1) true } else d

@[simp] theorem marked_key (key : DurationKey) (counter : Nat) (d : Duration) : (marked key counter d).key = d.key := by
  unfold marked
  split <;> rfl

/-- The mark is set on the event of the key, whose start and other marks stand. -/
theorem markPassed_duration {s : State} {key : DurationKey} {d : Duration} (h : s.duration key = some d)
    (counter : Nat) :
    (markPassed key counter s).duration key = some { d with passed := d.passed.set (counter - 1) true } := by
  have hkey : (fun e : Duration => decide (e.key = key)) ∘ marked key counter = fun e => decide (e.key = key) :=
    funext fun e => by simp
  calc (markPassed key counter s).duration key
      = (s.cond.durations.map (marked key counter)).find? (fun e => decide (e.key = key)) := rfl
    _ = (s.duration key).map (marked key counter) := by
      rw [List.find?_map, hkey]
      rfl
    _ = some { d with passed := d.passed.set (counter - 1) true } := by
      rw [h, Option.map_some, marked, if_pos (duration_key h)]

/-- Settles O52: a threshold that is due is marked and offered to its counter; any other command of this kind changes
nothing. -/
theorem thresholdPassed : Obligations.ThresholdPassed := by
  intro s key counter d c hd hlow _ hc _
  obtain rfl := duration_key hd
  have hdue := thresholdDue_iff (d := d) hlow hc
  rw [exec_durationThreshold hd]
  refine ⟨fun hevent hmark hpassed => ?_, fun hnot => ?_⟩
  · rw [if_pos (hdue.mpr ⟨hevent, hmark, hpassed⟩)]
    exact ⟨_, rfl, (offerThreshold_calm d.key counter s).toAside.trans (settle_aside _), rfl,
      _, markPassed_duration hd counter, rfl, rfl⟩
  · rw [if_neg]
    rw [hdue]
    rintro ⟨hevent, hmark, hpassed⟩
    rcases hnot with h | h | h
    · exact h hevent
    · exact absurd (h.symm.trans hmark) (by decide)
    · omega

end Sys2Proof.Tallies
end

section
/-! An occurrence of a condition (R123, R133), its announcement (R126, R127), and the level (R128). -/
namespace Sys2Proof.Conditions
open Sys2Proof.Machine Sys2Proof.Safety

/-! ## Records -/

/-- A condition that has a record is one of those of the table. -/
theorem record_some_iff {u : ConditionUnit} {id : Nat} {c : Condition} :
    u.record id = some c ↔ 1 ≤ id ∧ u.records[id - 1]? = some c := by
  unfold ConditionUnit.record
  split
  · rename_i h
    simp [h]
  · rename_i h
    exact (and_iff_right (Nat.one_le_iff_ne_zero.mpr h)).symm

theorem mem_of_record {u : ConditionUnit} {id : Nat} {c : Condition} (h : u.record id = some c) : c ∈ u.records :=
  List.mem_of_getElem? (record_some_iff.mp h).2

/-- The record of a condition after a change of one. -/
theorem record_onRecord (id j : Nat) (f : Condition → Condition) (s : State) :
    (onRecord id f s).cond.record j = if id = j then (s.cond.record j).map f else s.cond.record j := by
  unfold ConditionUnit.record onRecord
  by_cases hj : j = 0
  · simp [hj]
  · by_cases hid : id = 0
    · simp [hid, Ne.symm hj]
    · have hpred : id - 1 = j - 1 ↔ id = j := by omega
      simp only [hj, hid, if_false, updateAt, List.getElem?_modify, hpred]
      split <;> simp_all

/-- What a change that only grows makes of a record. -/
theorem record_grows {u v : ConditionUnit} (h : CondGrows u v) {id : Nat} {c : Condition} (hc : u.record id = some c) :
    ∃ d, v.record id = some d ∧ RecordGrows c d := by
  obtain ⟨hlow, hget⟩ := record_some_iff.mp hc
  obtain ⟨d, hd, hgrows⟩ := h.records _ c hget
  exact ⟨d, record_some_iff.mpr ⟨hlow, hd⟩, hgrows⟩

/-! ## The level (R125, R126, R128) -/

/-- R125, R126: a condition that is latched and DIRECT or escalated has its own level as its part. -/
theorem weight_of_active {c : Condition} (hl : c.latched = true) (ha : c.announceFirst = false ∨ c.escalated = true) :
    c.weight = c.level := by
  unfold Condition.weight
  rw [if_pos]
  rcases ha with ha | ha <;> simp [hl, ha]

/-- A condition with a part in the level is latched, and DIRECT or escalated. -/
theorem active_of_weight {c : Condition} (h : c.weight ≠ 0) :
    c.latched = true ∧ (c.announceFirst = false ∨ c.escalated = true) ∧ c.weight = c.level := by
  have hactive : (c.latched && (!c.announceFirst || c.escalated)) = true := by
    by_contra hn
    exact h (if_neg hn)
  refine ⟨?_, ?_, if_pos hactive⟩ <;> simp_all

theorem foldl_weight_attained (rs : List Condition) (m : Nat) :
    rs.foldl (fun m c => max m c.weight) m = m ∨ ∃ c ∈ rs, c.weight = rs.foldl (fun m c => max m c.weight) m := by
  induction rs generalizing m with
  | nil => exact .inl rfl
  | cons c rs ih =>
    rcases ih (max m c.weight) with h | ⟨d, hd, h⟩
    · rcases max_choice m c.weight with hm | hm
      · exact .inl (h.trans hm)
      · exact .inr ⟨c, by simp, (h.trans hm).symm⟩
    · exact .inr ⟨d, by simp [hd], h⟩

/-- R128: the level is some condition's part, or 0. -/
theorem level_attained (s : State) : s.level = 0 ∨ ∃ c ∈ s.cond.records,
    c.latched = true ∧ (c.announceFirst = false ∨ c.escalated = true) ∧ c.level = s.level := by
  by_cases hzero : s.level = 0
  · exact .inl hzero
  · rcases foldl_weight_attained s.cond.records 0 with h | ⟨c, hc, h⟩
    · exact absurd h hzero
    · obtain ⟨hl, ha, hw⟩ := active_of_weight (fun hw => hzero (h.symm.trans hw))
      exact .inr ⟨c, hc, hl, ha, hw.symm.trans h⟩

theorem level_le_of_active {s : State} {c : Condition} (hc : c ∈ s.cond.records) (hl : c.latched = true)
    (ha : c.announceFirst = false ∨ c.escalated = true) : c.level ≤ s.level :=
  weight_of_active hl ha ▸ weight_le_levelOf hc

/-! ## The remaining count (R127) -/

theorem drop_zero {c : Condition} (h : c.remaining = 0) : c.drop = c := if_pos h

theorem drop_succ {c : Condition} {n : Nat} (h : c.remaining = n + 1) :
    c.drop = { c with remaining := n, escalated := c.escalated || decide (n = 0) } := by
  simp [Condition.drop, h]

theorem voiceEnd_counting {c : Condition} (h : c.announcement = .counting) :
    c.voiceEnd = { c.drop with announcement := .none } := by
  rw [Condition.voiceEnd, h]

theorem voiceEnd_not_counting {c : Condition} (h : c.announcement ≠ .counting) :
    c.voiceEnd = { c with announcement := .none } := by
  unfold Condition.voiceEnd
  split
  · contradiction
  · rfl
  · rename_i hn
    rw [← hn]

/-! ## Steps 1 and 2 of an occurrence (R123, R133) -/

/-- The state in which an occurrence comes to its announcement: the flag latched, the first-fault record judged. -/
def flagged (id : Nat) (s : State) : State :=
  fillFirstFault id (onRecord id (fun q => { q with latched := true }) s)

theorem fillFirstFault_records (id : Nat) (s : State) : (fillFirstFault id s).cond.records = s.cond.records := by
  unfold fillFirstFault
  split
  · rfl
  · split <;> rfl

/-- R133: an occurrence of level 4 or more fills an empty record. -/
theorem fillFirstFault_empty {id : Nat} {s : State} {c : Condition} (hc : s.cond.record id = some c) (hl : 4 ≤ c.level)
    (he : s.cond.firstFault = none) : (fillFirstFault id s).cond.firstFault = some (firstFaultOf id c.level s) := by
  simp [fillFirstFault, hc, hl, he]

theorem record_flagged {id : Nat} {s : State} {c : Condition} (hc : s.cond.record id = some c) :
    (flagged id s).cond.record id = some { c with latched := true } := by
  rw [flagged, ConditionUnit.record, fillFirstFault_records, ← ConditionUnit.record, record_onRecord, if_pos rfl, hc]
  rfl

/-- R133: the snapshot does not read the flag that the first step has latched. -/
theorem flagged_firstFault {id : Nat} {s : State} {c : Condition} (hc : s.cond.record id = some c) (hl : 4 ≤ c.level)
    (he : s.cond.firstFault = none) : (flagged id s).cond.firstFault = some (firstFaultOf id c.level s) := by
  refine fillFirstFault_empty (c := { c with latched := true }) ?_ hl he
  rw [record_onRecord, if_pos rfl, hc]
  rfl

theorem flagged_calm (id : Nat) (s : State) : Calm s (flagged id s) :=
  (onRecord_calm id _ latchFlag_grows s).trans (fillFirstFault_calm id _)

theorem loading_calm {s t : State} (h : Calm s t) : t.loading = s.loading := by
  unfold State.loading
  rw [h.outside.resetHeld, h.outside.loader]

/-- R123: what an occurrence does after the first two steps only adds to them. -/
theorem latchWithBy_after_flagged {h : State → State} (hh : ∀ s, Calm s (h s)) (hold : Bool) (fuel id : Nat)
    (s : State) : Calm (flagged id s) (latchWithBy h hold fuel id s) := by
  have hannounce := announceBy_calm hh hold id (flagged id s)
  cases fuel with
  | zero =>
    rw [latchWithBy]
    refine (hannounce.trans ?_).trans (levelStepBy_calm hh _ _)
    split
    · exact tallyCore_calm _ _ _ _
    · exact Calm.refl _
  | succ n =>
    rw [latchWithBy]
    refine (hannounce.trans ?_).trans (levelStepBy_calm hh _ _)
    split
    · exact (tallyCore_calm _ _ _ _).trans (Calm.foldl _ (fun a k => latchWithBy_calm hh hold n (19 + k) a) _ _)
    · exact Calm.refl _

theorem latchWithBy_latched {h : State → State} (hh : ∀ s, Calm s (h s)) (hold : Bool) (fuel : Nat) {id : Nat}
    {s : State} {c : Condition} (hc : s.cond.record id = some c) : Latched (latchWithBy h hold fuel id s) id :=
  Latched.aside ⟨_, record_flagged hc, rfl⟩ (latchWithBy_after_flagged hh hold fuel id s).toAside

/-! ## Step 3: the announcement (R126) -/

/-- An occurrence without a stolen voice hands the level on after its announcement. -/
theorem latch_of_announce {id : Nat} {s u : State} (h : announceBy atOnce false id (flagged id s) = (u, false)) :
    latch id s = handLevel u := by
  show handLevel (if (announceBy atOnce false id (flagged id s)).2 then _
    else (announceBy atOnce false id (flagged id s)).1) = _
  rw [h]
  rfl

/-- A stolen voice is a VOICE_STEAL arrival, whose trips latch in counter order before the level is handed on
(log 16). -/
theorem latch_of_steal {id : Nat} {s u : State} (h : announceBy atOnce false id (flagged id s) = (u, true)) :
    latch id s = handLevel ((tallyCore (fun _ => true) .voiceSteal 1 u).2.foldl
      (fun a n => latchWithBy atOnce false 3 (19 + n) a) (tallyCore (fun _ => true) .voiceSteal 1 u).1) := by
  show handLevel (if (announceBy atOnce false id (flagged id s)).2 then
    (tallyCore (fun _ => true) .voiceSteal 1 (announceBy atOnce false id (flagged id s)).1).2.foldl _
      (tallyCore (fun _ => true) .voiceSteal 1 (announceBy atOnce false id (flagged id s)).1).1 else _) = _
  rw [h]
  rfl

/-- R126: the request that an occurrence makes for an announcement with clip k. -/
def announceRequest (id k : Nat) (s : State) : State × StartResult :=
  requestVoice (conditionRequest id k) (flagged id s)

/-- The state after a request that is started: the announcement counts. -/
def announced (id k : Nat) (s : State) : State :=
  onRecord id (fun q => { q with announcement := .counting }) (announceRequest id k s).1

section Announcement
variable {h : State → State} {hold : Bool} {id : Nat} {s : State} {c : Condition}

/-- R126: no request is made for a DIRECT condition, during the load, without a remaining count, and while the
announcement still plays. -/
theorem announceBy_silent (hc : s.cond.record id = some c)
    (hn : c.announceFirst = false ∨ s.loading = true ∨ c.remaining = 0 ∨ c.announcement ≠ .none) :
    announceBy h hold id s = (s, false) := by
  have hguard : (!c.announceFirst || s.loading || decide (c.remaining = 0) || c.announcement != .none) = true := by
    simp only [Bool.or_eq_true, Bool.not_eq_true', decide_eq_true_eq, bne_iff_ne, or_assoc]
    exact hn
  rw [announceBy, hc]
  exact if_pos hguard

/-- R126: the condition asks for its announcement. -/
structure Asks (id : Nat) (c : Condition) (s : State) : Prop where
  record : s.cond.record id = some c
  first : c.announceFirst = true
  loaded : s.loading = false
  remaining : 0 < c.remaining
  silent : c.announcement = .none

theorem Asks.guard (ha : Asks id c s) :
    ¬ (!c.announceFirst || s.loading || decide (c.remaining = 0) || c.announcement != .none) = true := by
  simp [ha.first, ha.loaded, ha.silent, Nat.ne_of_gt ha.remaining]

theorem announceBy_noClip (ha : Asks id c s) (hk : c.clip = none) :
    announceBy h hold id s = (onRecord id Condition.drop s, false) := by
  rw [announceBy, ha.record]
  dsimp only
  rw [if_neg ha.guard, hk]

theorem announceBy_clip (ha : Asks id c s) {k : Nat} (hk : c.clip = some k) : announceBy h hold id s =
    if (requestVoiceBy h hold (conditionRequest id k) s).2.started then
      (onRecord id (fun q => { q with announcement := .counting }) (requestVoiceBy h hold (conditionRequest id k) s).1,
        (requestVoiceBy h hold (conditionRequest id k) s).2.stolen.isSome)
    else (onRecord id Condition.drop (requestVoiceBy h hold (conditionRequest id k) s).1, false) := by
  rw [announceBy, ha.record]
  dsimp only
  rw [if_neg ha.guard, hk]

/-- The first two steps of an occurrence do not change whether its condition asks. -/
theorem Asks.flagged (ha : Asks id c s) : Asks id { c with latched := true } (flagged id s) :=
  ⟨record_flagged ha.record, ha.first, (loading_calm (flagged_calm id s)).trans ha.loaded, ha.remaining, ha.silent⟩

theorem latch_silent (hc : s.cond.record id = some c)
    (hn : c.announceFirst = false ∨ s.loading = true ∨ c.remaining = 0 ∨ c.announcement ≠ .none) :
    latch id s = handLevel (flagged id s) := by
  rw [← loading_calm (flagged_calm id s)] at hn
  exact latch_of_announce (announceBy_silent (record_flagged hc) hn)

theorem latch_noClip (ha : Asks id c s) (hk : c.clip = none) :
    latch id s = handLevel (onRecord id Condition.drop (flagged id s)) :=
  latch_of_announce (announceBy_noClip ha.flagged hk)

theorem latch_refused (ha : Asks id c s) {k : Nat} (hk : c.clip = some k)
    (hr : (announceRequest id k s).2.started = false) : latch id s
      = handLevel (onRecord id Condition.drop (announceRequest id k s).1) :=
  latch_of_announce ((announceBy_clip ha.flagged hk).trans (if_neg (Bool.eq_false_iff.mp hr)))

theorem announceBy_started (ha : Asks id c s) {k : Nat} (hk : c.clip = some k)
    (hr : (announceRequest id k s).2.started = true) {stole : Bool}
    (hs : (announceRequest id k s).2.stolen.isSome = stole) :
    announceBy atOnce false id (flagged id s) = (announced id k s, stole) :=
  hs ▸ (announceBy_clip ha.flagged hk).trans (if_pos hr)

theorem latch_started (ha : Asks id c s) {k : Nat} (hk : c.clip = some k)
    (hr : (announceRequest id k s).2.started = true)
    (hs : (announceRequest id k s).2.stolen = none) :
    latch id s = handLevel (announced id k s) :=
  latch_of_announce (announceBy_started ha hk hr (Option.isSome_eq_false_iff.mpr (Option.isNone_iff_eq_none.mpr hs)))

theorem latch_stole (ha : Asks id c s) {k : Nat} (hk : c.clip = some k)
    (hr : (announceRequest id k s).2.started = true)
    (hs : (announceRequest id k s).2.stolen ≠ none) :
    latch id s = handLevel ((tallyCore (fun _ => true) .voiceSteal 1 (announced id k s)).2.foldl
      (fun a n => latchWithBy atOnce false 3 (19 + n) a)
      (tallyCore (fun _ => true) .voiceSteal 1 (announced id k s)).1) :=
  latch_of_steal (announceBy_started ha hk hr (Option.isSome_iff_ne_none.mpr hs))

end Announcement

/-! ## The occurrence -/

/-- R133: an occurrence of level 4 or more fills an empty first-fault record. -/
theorem latch_firstFault {id : Nat} {s : State} {c : Condition} (hc : s.cond.record id = some c) (hl : 4 ≤ c.level)
    (he : s.cond.firstFault = none) : (latch id s).cond.firstFault = some (firstFaultOf id c.level s) :=
  (latchWithBy_after_flagged atOnce_calm false 4 id s).grows.firstFault _ (flagged_firstFault hc hl he)

/-- R125, R128: an occurrence of a DIRECT condition raises the level to its own. -/
theorem latch_level {id : Nat} {s : State} {c : Condition} (hc : s.cond.record id = some c)
    (hd : c.announceFirst = false) : c.level ≤ (latch id s).level := by
  have hcalm := latchWithBy_after_flagged atOnce_calm false 4 id s
  obtain ⟨d, hget, hgrows⟩ := record_grows hcalm.grows (record_flagged hc)
  have hlevel : d.level ≤ (latch id s).level :=
    level_le_of_active (mem_of_record hget) (hgrows.latched rfl) (.inl (hgrows.announceFirst.trans hd))
  rwa [hgrows.level] at hlevel

/-- R58, R59: the motion state may stand at the level after an occurrence. -/
theorem latch_stands {id : Nat} {s : State} (h : Stands s.cond.handed s.motion.state) :
    Stands (latch id s).level (latch id s).motion.state := by
  have hhanded : (latch id s).cond.handed = (latch id s).level := latch_handed id s
  rw [← hhanded]
  exact (latch_calm id s).stands h

/-- Settles O50: the occurrence by what its first two steps write and what follows only adds, its announcement case by
case, the count of announcements, and the level. -/
theorem occurrenceTaken : Obligations.OccurrenceTaken := by
  refine ⟨fun s id c hc => ?_, fun c => ⟨drop_zero, fun _ => drop_succ, voiceEnd_counting, voiceEnd_not_counting⟩,
    fun _ _ => rfl, fun s => ⟨fun _ => level_le_of_active, level_attained s⟩⟩
  refine ⟨latchWithBy_latched atOnce_calm false 4 hc, latch_handed id s, (latch_calm id s).toAside, latch_level hc,
    latch_firstFault hc, (latch_calm id s).grows.firstFault, latch_stands, latch_silent hc,
    fun hfirst hload hcount hsilent => ?_⟩
  have ha : Asks id c s := ⟨hc, hfirst, hload, hcount, hsilent⟩
  exact ⟨latch_noClip ha, fun k hk => ⟨latch_refused ha hk, latch_started ha hk, latch_stole ha hk⟩⟩

end Sys2Proof.Conditions
end

section
/-! CLEAR (R129 to R132): its first five steps and what they write (R109, R117, R130, R134, R141), the causes that latch a
condition again (R131), and the level handed on at its end. -/
namespace Sys2Proof.Conditions
open Sys2Proof.Machine Sys2Proof.Safety Sys2Proof.RideLink
open Sys2Proof.Standing (relatch_calm)
open Sys2Proof.RestraintMonitor (latched_foldl)

/-! ## The options (R134, R141, R117, R109) -/

theorem releaseFirstFault_when (b : Bool) (s : State) : (if b then releaseFirstFault s else s)
    = { s with cond := { s.cond with firstFault := if b then none else s.cond.firstFault } } := by
  cases b <;> rfl

theorem resetTallies_when (b : Bool) (s : State) : (if b then resetTallies s else s)
    = { s with cond := { s.cond with
        counters := if b then s.cond.counters.map Counter.resetTally else s.cond.counters
        frozen := if b then false else s.cond.frozen } } := by
  cases b <;> rfl

theorem clearDiagnostics_when (b : Bool) (s : State) : (if b then clearDiagnostics s else s)
    = { s with restraint := { s.restraint with
        lines := if b then s.restraint.lines.map fun l => { l with mismatches := 0, capture := none }
          else s.restraint.lines } } := by
  cases b <;> rfl

/-- R109: a seat in FAULT is freed. -/
def freedSeat (q : Seat) : Seat := if q.state = .fault then { q with state := .opened, releaseCheck := true } else q

theorem freedSeat_state (q : Seat) : (freedSeat q).state ≠ .fault := by
  unfold freedSeat
  split
  · exact nofun
  · assumption

theorem freeSeats_when (b : Bool) (s : State) : (if b then freeSeats s else s)
    = { s with restraint := { s.restraint with
        seats := if b then s.restraint.seats.map freedSeat else s.restraint.seats } } := by
  cases b <;> rfl

/-! ## The named conditions (R130) -/

theorem mem_namedIds {conditions : BitVec 32} {id : Nat} :
    id ∈ namedIds conditions ↔ 1 ≤ id ∧ id ≤ 25 ∧ conditions.getLsbD id = true := by
  simp only [namedIds, List.mem_filter, List.mem_range, Bool.and_eq_true, decide_eq_true_eq]
  exact ⟨fun ⟨hlt, hlow, hbit⟩ => ⟨hlow, by omega, hbit⟩, fun ⟨hlow, hle, hbit⟩ => ⟨by omega, hlow, hbit⟩⟩

/-- A cleared condition has nothing left to clear. -/
theorem clear_clear (c : Condition) : c.clear.clear = c.clear := by
  unfold Condition.clear
  dsimp only
  split <;> simp_all

/-- The records of these conditions are cleared. -/
def clearRecords (ids : List Nat) (s : State) : State := ids.foldl (fun a id => onRecord id Condition.clear a) s

theorem clearRecords_frame (ids : List Nat) (s : State) :
    clearRecords ids s = { s with cond := { s.cond with records := (clearRecords ids s).cond.records } } := by
  induction ids generalizing s with
  | nil => rfl
  | cons id ids ih => exact ih (onRecord id Condition.clear s)

theorem clearRecords_length (ids : List Nat) (s : State) :
    (clearRecords ids s).cond.records.length = s.cond.records.length := by
  induction ids generalizing s with
  | nil => rfl
  | cons id ids ih =>
    refine (ih (onRecord id Condition.clear s)).trans ?_
    show (if id = 0 then s.cond.records else updateAt (id - 1) Condition.clear s.cond.records).length = _
    split
    · rfl
    · exact List.length_modify _ _ _

theorem clearRecords_record (ids : List Nat) (s : State) (id : Nat) : (clearRecords ids s).cond.record id
    = (s.cond.record id).map fun c => if id ∈ ids then c.clear else c := by
  induction ids generalizing s with
  | nil => simp [clearRecords]
  | cons j ids ih =>
    rw [show clearRecords (j :: ids) s = clearRecords ids (onRecord j Condition.clear s) from rfl, ih, record_onRecord]
    by_cases hj : j = id
    · subst hj
      cases s.cond.record j <;> simp [clear_clear]
    · simp [hj, Ne.symm hj]

/-! ## Steps 1 to 5 (R129) -/

/-- R109, R117: the restraint lines and seats after a CLEAR. -/
def clearedRestraint (conditions : BitVec 32) (options : Byte) (r : Restraint) : Restraint :=
  { r with
    lines := if options.getLsbD 2 then r.lines.map fun l => { l with mismatches := 0, capture := none } else r.lines
    seats := if conditions.getLsbD 15 then r.seats.map freedSeat else r.seats }

/-- R134, R141: the first-fault record and the counters after a CLEAR. -/
def clearedCond (options : Byte) (u : ConditionUnit) : ConditionUnit :=
  { u with
    firstFault := if options.getLsbD 0 then none else u.firstFault
    counters := if options.getLsbD 1 then u.counters.map Counter.resetTally else u.counters
    frozen := if options.getLsbD 1 then false else u.frozen }

theorem clearSteps_eq (conditions : BitVec 32) (options : Byte) (s : State) : clearSteps conditions options s
    = clearRecords (namedIds conditions)
        { s with restraint := clearedRestraint conditions options s.restraint, cond := clearedCond options s.cond } := by
  unfold clearSteps
  dsimp only
  rw [releaseFirstFault_when, resetTallies_when, clearDiagnostics_when, freeSeats_when]
  rfl

/-- What the first five steps write, but for the records. -/
theorem clearSteps_writes (conditions : BitVec 32) (options : Byte) (s : State) : clearSteps conditions options s
    = { s with
        restraint := clearedRestraint conditions options s.restraint
        cond := { clearedCond options s.cond with records := (clearSteps conditions options s).cond.records } } := by
  rw [clearSteps_eq]
  exact clearRecords_frame _ _

theorem clearSteps_length (conditions : BitVec 32) (options : Byte) (s : State) :
    (clearSteps conditions options s).cond.records.length = s.cond.records.length := by
  rw [clearSteps_eq]
  exact clearRecords_length _ _

/-- R130: the named conditions are cleared, the others stand. -/
theorem clearSteps_record (conditions : BitVec 32) (options : Byte) {s : State} {id : Nat} {c : Condition}
    (hlow : 1 ≤ id) (hhigh : id ≤ 25) (hc : s.cond.record id = some c) :
    (clearSteps conditions options s).cond.record id = some (if conditions.getLsbD id then c.clear else c) := by
  have hnamed : id ∈ namedIds conditions ↔ conditions.getLsbD id = true := by
    rw [mem_namedIds]
    exact ⟨fun h => h.2.2, fun h => ⟨hlow, hhigh, h⟩⟩
  have hrecord := clearRecords_record (namedIds conditions)
    { s with restraint := clearedRestraint conditions options s.restraint, cond := clearedCond options s.cond } id
  rw [← clearSteps_eq] at hrecord
  rw [hrecord]
  show (s.cond.record id).map _ = _
  simp only [hc, Option.map_some, hnamed]

/-- Outside the Condition Unit, and but for the lines and seats of its options, a CLEAR's first five steps change
nothing. -/
theorem clearSteps_outside (conditions : BitVec 32) (options : Byte) (s : State) :
    SameOutside { s with restraint := clearedRestraint conditions options s.restraint }
      (clearSteps conditions options s) := by
  rw [clearSteps_writes]
  exact { SameOutside.refl { s with restraint := clearedRestraint conditions options s.restraint } with }

/-! ## Persistent causes (R124, R131) -/

/-- But for that of SEAT_FAULT, what the shared operations do leaves the persistent causes. -/
theorem cause_aside {s t : State} (h : Aside s t) {id : Nat} (hid : id ≠ 15) : t.cause id = s.cause id := by
  have hstart : (t.motion.state != .start) = (s.motion.state != .start) :=
    Bool.eq_iff_iff.mpr (by simp [h.start])
  unfold State.cause State.anyVehicleLost State.anyRouteMismatch
  rw [h.outside.link, h.outside.peers, h.outside.route, h.outside.tracker, h.outside.driveFaultIn,
    h.outside.localStopIn, hstart]
  split
  case h_8 => exact absurd rfl hid
  all_goals rfl

/-- R131: but for that of SEAT_FAULT, the first five steps leave the persistent causes. -/
theorem clearSteps_cause (conditions : BitVec 32) (options : Byte) (s : State) {id : Nat} (hid : id ≠ 15) :
    (clearSteps conditions options s).cause id = s.cause id := by
  rw [clearSteps_writes]
  unfold State.cause
  split
  case h_8 => exact absurd rfl hid
  all_goals rfl

/-- R109: a CLEAR that names SEAT_FAULT has ended its cause. -/
theorem clearSteps_seatFault {conditions : BitVec 32} (h : conditions.getLsbD 15 = true) (options : Byte) (s : State) :
    (clearSteps conditions options s).cause 15 = false := by
  rw [clearSteps_writes]
  show ((clearedRestraint conditions options s.restraint).seats.any fun q => decide (q.state = .fault)) = false
  rw [clearedRestraint, if_pos h]
  simp [freedSeat_state]

/-! ## Step 6 (R131) -/

theorem relatch_idle {s : State} {id : Nat} (h : s.cause id = false) : relatch s id = s := if_neg (Bool.eq_false_iff.mp h)

/-- Every condition of the table has a record. -/
theorem record_exists {s : State} (hs : s.cond.records.length = 25) {id : Nat} (hlow : 1 ≤ id) (hhigh : id ≤ 25) :
    ∃ c, s.cond.record id = some c :=
  ⟨_, record_some_iff.mpr ⟨hlow, List.getElem?_eq_getElem (by omega)⟩⟩

theorem relatch_latched {s : State} (hs : s.cond.records.length = 25) {id : Nat} (hlow : 1 ≤ id) (hhigh : id ≤ 25)
    (h : s.cause id = true) : Latched (relatch s id) id := by
  obtain ⟨c, hc⟩ := record_exists hs hlow hhigh
  rw [relatch, if_pos h]
  exact latchWithBy_latched atOnce_calm true 4 hc

theorem foldl_relatch_idle {ids : List Nat} {s : State} (h : ∀ id ∈ ids, s.cause id = false) :
    ids.foldl relatch s = s := by
  induction ids with
  | nil => rfl
  | cons id ids ih =>
    rw [List.foldl_cons, relatch_idle (h id (by simp))]
    exact ih fun j hj => h j (by simp [hj])

theorem ownClear_after_steps (conditions : BitVec 32) (options : Byte) (s : State) :
    Calm (clearSteps conditions options s) (ownClear conditions options s) :=
  (Calm.foldl _ relatch_calm _ _).trans (handLevel_calm _)

/-- R131: a named condition whose persistent cause holds is latched again. -/
theorem ownClear_latched {conditions : BitVec 32} (options : Byte) {s : State} (hs : s.cond.records.length = 25) {id : Nat}
    (hlow : 1 ≤ id) (hhigh : id ≤ 25) (hnamed : conditions.getLsbD id = true) (hid : id ≠ 15) (hcause : s.cause id = true) :
    Latched (ownClear conditions options s) id := by
  refine Latched.aside (latched_foldl relatch_calm (mem_namedIds.mpr ⟨hlow, hhigh, hnamed⟩) fun u hu => ?_)
    (handLevel_calm _).toAside
  refine relatch_latched (hu.grows.length.trans ((clearSteps_length conditions options s).trans hs)) hlow hhigh ?_
  rw [cause_aside hu.toAside hid, clearSteps_cause conditions options s hid, hcause]

/-- R131: no named condition is latched again where none but SEAT_FAULT has its cause, which the fourth step ends. -/
theorem ownClear_idle {conditions : BitVec 32} (options : Byte) {s : State}
    (h : ∀ id, 1 ≤ id → id ≤ 25 → conditions.getLsbD id = true → id = 15 ∨ s.cause id = false) :
    ownClear conditions options s = handLevel (clearSteps conditions options s) := by
  refine congrArg handLevel (foldl_relatch_idle fun id hmem => ?_)
  obtain ⟨hlow, hhigh, hnamed⟩ := mem_namedIds.mp hmem
  by_cases hid : id = 15
  · subst hid
    exact clearSteps_seatFault hnamed options s
  · rw [clearSteps_cause conditions options s hid]
    exact (h id hlow hhigh hnamed).resolve_left hid

/-! ## Step 7 (R128, R131) -/

/-- The level is written as handed on. -/
def levelHanded (s : State) : State := { s with cond := { s.cond with handed := s.level } }

/-- R58, R128: what handing the level on leads to. -/
theorem handLevel_after_handed (s : State) : Aside (levelHanded s) (handLevel s) := by
  unfold handLevel handLevelBy
  split
  · rename_i h
    have hsame : levelHanded s = s := by
      rw [levelHanded, h]
    rw [hsame]
    exact Aside.refl s
  · exact (applyLevel_aside (levelHanded s)).1.trans (atOnce_calm _).toAside

/-! ## CLEAR -/

theorem exec_clear {s : State} {source target : Nat} (h : Accepted s .clear source target) (conditions : BitVec 32)
    (options : Byte) : exec (.clear source target conditions options) s
      = .next (settle (ownClear conditions options (received s))) := by
  rw [exec_commandHeader rfl, commandRow_accepted h]
  rfl

/-- Settles O31: the first five steps by what they write, the sixth by the causes, which it leaves as the frame's
reception set them, and the seventh as one handing on of the level. -/
theorem clearTaken : Obligations.ClearTaken := by
  intro s source target conditions options hacc htables
  refine ⟨⟨_, exec_clear hacc conditions options, ?_, fun id hlow hhigh hnamed hid hcause => ?_⟩, fun hnone => ?_⟩
  · exact (clearSteps_outside conditions options (received s)).trans
      ((ownClear_after_steps conditions options (received s)).toAside.trans (settle_aside _)).outside
  · exact (ownClear_latched options (s := received s) htables.records hlow hhigh hnamed hid hcause).aside (settle_aside _)
  · refine ⟨_, levelHanded (clearSteps conditions options (received s)), exec_clear hacc conditions options, ?_, ?_,
      clearSteps_length conditions options (received s),
      fun id c hlow hhigh hc => clearSteps_record conditions options (s := received s) hlow hhigh hc⟩
    · rw [ownClear_idle options hnone]
      exact (handLevel_after_handed _).trans (settle_aside _)
    · exact congrArg levelHanded (clearSteps_writes conditions options (received s))

end Sys2Proof.Conditions
end

section
/-! Scene clocks (R151) and the watches on them (R152, R153): what the estimate is, when a watch starts, what ends it, and how
it is judged. -/
namespace Sys2Proof.SceneCues
open Sys2Proof.Machine Sys2Proof.Safety

/-! ## The scene estimate (R151) -/

theorem estimate_fresh {s : State} {a : Nat} {p : Peer} (hp : s.peer a = some p) (hf : p.state = .fresh)
    (hk : p.kind = .scene) : s.estimate a = some ((sceneClock p.body + (s.now - p.received)) % 16777216) := by
  rw [State.estimate, hp]
  exact if_pos (by rw [hf, hk]; rfl)

theorem estimate_unavailable {s : State} {a : Nat} (h : ∀ p, s.peer a = some p → p.state ≠ .fresh ∨ p.kind ≠ .scene) :
    s.estimate a = none := by
  unfold State.estimate
  split
  · rfl
  · rename_i p hp
    refine if_neg fun hb => ?_
    simp only [Bool.and_eq_true, decide_eq_true_eq] at hb
    exact (h p hp).elim (absurd hb.1) (absurd hb.2)

/-- R151: the distance ahead on the scene clock's loop is the difference modulo 16,777,216. -/
theorem ahead_sceneWrap (x y : Nat) : (ahead Config.sceneWrap x y : Int) = ((y : Int) - x) % 16777216 := by
  unfold ahead Config.sceneWrap
  omega

theorem sceneReached_iff (e x : Nat) : sceneReached e x = true ↔ ((e : Int) - x) % 16777216 < 8388608 := by
  rw [sceneReached, decide_eq_true_iff, sceneSince, ← ahead_sceneWrap x e]
  exact Int.ofNat_lt.symm

/-- Settles O56, with both figures read as distances on the clock's loop. -/
theorem sceneEstimate : Obligations.SceneEstimate :=
  ⟨fun _ _ _ => estimate_fresh, fun _ _ => estimate_unavailable,
    fun e x _ _ => ⟨sceneReached_iff e x, ahead_sceneWrap e x⟩⟩

/-! ## The judgement of a watch (R153) -/

theorem judgeWatch_unavailable {s : State} {scene : Nat} (h : s.estimate scene = none) (id time : Nat) :
    judgeWatch id scene time s = onCue id (fun c => { c with watchExpiry := none }) s := by
  rw [judgeWatch, h]

theorem judgeWatch_reached {s : State} {scene time e : Nat} (h : s.estimate scene = some e)
    (hr : sceneReached e time = true) (id : Nat) : judgeWatch id scene time s = watchOccurs id s := by
  rw [judgeWatch, h]
  exact if_pos hr

theorem judgeWatch_ahead {s : State} {scene time e : Nat} (h : s.estimate scene = some e)
    (hr : sceneReached e time = false) (id : Nat) : judgeWatch id scene time s
      = onCue id (fun c => { c with watchExpiry := some (s.now + sceneWait e time) }) s := by
  rw [judgeWatch, h]
  exact if_neg (Bool.not_eq_true _ ▸ hr)

/-! ## WATCH_EXPIRY (R153) -/

section
variable {s : State} {cue t0 : Nat} {c : CueEntry} (hc : s.cues.table[cue]? = some c) (hw : c.watching = true)
  (he : c.watchExpiry = some t0)
include hc hw he

theorem execWatchExpiry_running : exec (.watchExpiry cue) s
    = .next (if t0 ≤ s.now then settle (watchOccurs cue s) else s) := by
  show execWatchExpiry cue s = _
  rw [execWatchExpiry, hc]
  dsimp only
  rw [hw, he]

theorem exec_watchExpiry_due (h : t0 ≤ s.now) : exec (.watchExpiry cue) s = .next (settle (watchOccurs cue s)) := by
  rw [execWatchExpiry_running hc hw he, if_pos h]

theorem exec_watchExpiry_early (h : s.now < t0) : exec (.watchExpiry cue) s = .next s := by
  rw [execWatchExpiry_running hc hw he, if_neg (Nat.not_le.mpr h)]

end

/-! ## A watch at a position change (R152) -/

theorem standsInside_iff {s : State} {scene : Nat} : (s.governedZone scene).any s.standsIn = true
    ↔ ∃ z, s.governedZone scene = some z ∧ z ≠ 255 ∧ s.frontZone = some z := by
  simp [Option.any_eq_true, State.standsIn]

theorem mayEnd_iff {ch : PosChange} :
    ch.mayEnd = true ↔ ch.span.isSome = true ∨ ch.kind = .fix ∨ ch.kind = .initialFix := by
  simp [PosChange.mayEnd, or_assoc]

/-- R152: what brings the front into a zone: the zone's entry lies in the new ground, or a fix finds the front in a zone it
was not in. -/
theorem comesInto_iff {r : Route} {ch : PosChange} {z : Nat} : comesInto r ch z = true
    ↔ (∃ p f e, ch.ground = some (p, f) ∧ r.entry z = some e ∧ spanHas (1000 * r.len) p f (1000 * e) = true)
      ∨ ((ch.kind = .fix ∨ ch.kind = .initialFix) ∧ ch.oldZone ≠ some z) := by
  unfold comesInto
  rw [Bool.or_eq_true]
  refine or_congr ?_ (by simp)
  cases ch.ground with
  | none => simp
  | some g =>
    obtain ⟨p, f⟩ := g
    cases r.entry z <;> simp [Route.loop, and_assoc]

/-- R152: with a single governed zone, standing in it and coming into it are said of that zone. -/
theorem starts_iff {r : Route} {ch : PosChange} {s : State} {scene : Nat} :
    ((s.governedZone scene).any s.standsIn && (s.governedZone scene).any (comesInto r ch)) = true
      ↔ (∃ z, s.governedZone scene = some z ∧ z ≠ 255 ∧ s.frontZone = some z)
        ∧ ∃ z, s.governedZone scene = some z ∧ comesInto r ch z = true := by
  rw [Bool.and_eq_true, standsInside_iff, Option.any_eq_true]

section
variable {s : State} {id : Nat} {c : CueEntry} (hc : s.cues.table[id]? = some c)
include hc

theorem watchChange_unwatched (h : c.enabled = false ∨ ∀ scene time, c.trigger ≠ .sceneTime scene time) (r : Route)
    (ch : PosChange) : watchChange r ch s id = s := by
  rw [watchChange, hc]
  dsimp only
  split
  · rename_i scene time he ht
    exact h.elim (fun hn => nomatch hn.symm.trans he) fun hn => absurd ht (hn scene time)
  · rfl

variable {scene time : Nat} (he : c.enabled = true) (ht : c.trigger = .sceneTime scene time)
include he ht

theorem watchChange_running (hw : c.watching = true) (r : Route) (ch : PosChange) : watchChange r ch s id
    = if !(s.governedZone scene).any s.standsIn && ch.mayEnd then onCue id CueEntry.unwatch s else s := by
  rw [watchChange, hc]
  dsimp only
  rw [he, ht]
  exact if_pos hw

theorem watchChange_idle (hw : c.watching = false) (r : Route) (ch : PosChange) : watchChange r ch s id
    = if (s.governedZone scene).any s.standsIn && (s.governedZone scene).any (comesInto r ch) then
        startWatch id scene time s else s := by
  rw [watchChange, hc]
  dsimp only
  rw [he, ht]
  exact if_neg (by rw [hw]; exact Bool.false_ne_true)

end

/-- R152: a running watch ends where the front is outside its zone after a change that may end it. -/
theorem ends_iff {ch : PosChange} {s : State} {scene : Nat} :
    (!(s.governedZone scene).any s.standsIn && ch.mayEnd) = true
      ↔ (¬ ∃ z, s.governedZone scene = some z ∧ z ≠ 255 ∧ s.frontZone = some z)
        ∧ (ch.span.isSome = true ∨ ch.kind = .fix ∨ ch.kind = .initialFix) := by
  rw [Bool.and_eq_true, Bool.not_eq_true', ← Bool.not_eq_true, standsInside_iff, mayEnd_iff]

/-- Settles O55: the expiry, the change of a watch by whether the front stands in its zone, and the judgement by the
estimate. -/
theorem watchExpires : Obligations.WatchExpires := by
  refine ⟨fun s cue t0 c hc hw he => ⟨fun h => ⟨_, exec_watchExpiry_due hc hw he h, rfl, ?_⟩,
      exec_watchExpiry_early hc hw he⟩, fun r ch s id c hc => ⟨fun h => watchChange_unwatched hc h r ch, ?_⟩,
    fun _ _ _ => comesInto_iff,
    fun s id scene time => ⟨fun h => judgeWatch_unavailable h id time, fun e h hr => judgeWatch_reached h hr id,
      fun e h hr => judgeWatch_ahead h hr id⟩⟩
  · exact (watchOccurs_calm cue s).toAside.trans (settle_aside _)
  · intro scene time he ht
    have running := fun hw => watchChange_running hc he ht hw r ch
    have idle := fun hw => watchChange_idle hc he ht hw r ch
    refine ⟨fun hw hout hends => ?_, fun hw hstays => ?_, fun hw hin hcomes => ?_, fun hw hnot => ?_⟩
    · exact (running hw).trans (if_pos (ends_iff.mpr ⟨hout, hends⟩))
    · exact (running hw).trans (if_neg fun h => hstays.elim (ends_iff.mp h).1 (absurd (ends_iff.mp h).2))
    · exact (idle hw).trans (if_pos (starts_iff.mpr ⟨hin, hcomes⟩))
    · exact (idle hw).trans (if_neg fun h => hnot (starts_iff.mp h))

end Sys2Proof.SceneCues
end

section
/-! Occurrences of cues: one occurrence by the tests of R146, and which cues one event lets occur, in what order (R149, R150,
R158). -/
namespace Sys2Proof.SceneCues
open Sys2Proof.Machine Sys2Proof.Safety
open Sys2Proof.Position (spanHas_iff)
open Sys2Proof.ZoneClaims (insertByKey_perm sortByKey_perm_rising)

/-! ## Joining an ordered list -/

/-- An element joins behind every element of a key no greater, up to the first of a greater key. -/
theorem insertByKey_split {α : Type} (key : α → Nat) (x : α) (ys : List α) : ∃ before after, ys = before ++ after
    ∧ insertByKey key x ys = before ++ x :: after ∧ (∀ y ∈ after.head?, key x < key y) ∧ ∀ y ∈ before, key y ≤ key x := by
  induction ys with
  | nil => exact ⟨[], [], rfl, rfl, by simp, by simp⟩
  | cons y ys ih =>
    by_cases hlt : key x < key y
    · refine ⟨[], y :: ys, rfl, if_pos hlt, fun z hz => ?_, fun _ h => nomatch h⟩
      rw [← Option.some.inj hz]
      exact hlt
    · obtain ⟨before, after, hys, hjoined, hafter, hbefore⟩ := ih
      refine ⟨y :: before, after, congrArg (y :: ·) hys, (if_neg hlt).trans (congrArg (y :: ·) hjoined), hafter,
        fun z hz => ?_⟩
      rcases List.mem_cons.mp hz with rfl | hz
      · exact Nat.not_lt.mp hlt
      · exact hbefore z hz

/-- The order of a rising key in which a second relation decides between equal keys. -/
def KeyThen {α : Type} (key : α → Nat) (tie : α → α → Prop) (a b : α) : Prop :=
  key a < key b ∨ (key a = key b ∧ tie a b)

section
variable {α : Type} {key : α → Nat} {tie : α → α → Prop}

theorem KeyThen.key_le {a b : α} (h : KeyThen key tie a b) : key a ≤ key b := h.elim Nat.le_of_lt fun e => Nat.le_of_eq e.1

theorem insertByKey_keyThen {x : α} {ys : List α} (h : ys.Pairwise (KeyThen key tie)) (hx : ∀ y ∈ ys, tie y x) :
    (insertByKey key x ys).Pairwise (KeyThen key tie) := by
  obtain ⟨before, after, rfl, hjoined, hafter, hbefore⟩ := insertByKey_split key x ys
  obtain ⟨hp, hq, hpq⟩ := List.pairwise_append.mp h
  have behind : ∀ y ∈ after, key x < key y := fun y hy => by
    cases after with
    | nil => exact nomatch hy
    | cons z zs =>
      have hz := hafter z rfl
      rcases List.mem_cons.mp hy with rfl | hy
      · exact hz
      · exact Nat.lt_of_lt_of_le hz ((List.pairwise_cons.mp hq).1 y hy).key_le
  rw [hjoined]
  refine List.pairwise_append.mpr ⟨hp, List.pairwise_cons.mpr ⟨fun y hy => .inl (behind y hy), hq⟩, fun a ha b hb => ?_⟩
  rcases List.mem_cons.mp hb with rfl | hb
  · exact (Nat.lt_or_eq_of_le (hbefore a ha)).imp_right fun e => ⟨e, hx a (List.mem_append_left _ ha)⟩
  · exact hpq a ha b hb

/-- Putting a list in order by a key keeps the order of the elements of one key. -/
theorem sortByKey_keyThen {xs : List α} (h : xs.Pairwise tie) : (sortByKey key xs).Pairwise (KeyThen key tie) := by
  have insertAll : ∀ xs acc : List α, xs.Pairwise tie → acc.Pairwise (KeyThen key tie) → (∀ a ∈ acc, ∀ x ∈ xs, tie a x) →
      (xs.foldl (fun acc x => insertByKey key x acc) acc).Pairwise (KeyThen key tie) := by
    intro xs
    induction xs with
    | nil => exact fun _ _ hacc _ => hacc
    | cons x xs ih =>
      intro acc hxs hacc hties
      obtain ⟨hx, hrest⟩ := List.pairwise_cons.mp hxs
      refine ih _ hrest (insertByKey_keyThen hacc fun a ha => hties a ha x List.mem_cons_self) fun a ha y hy => ?_
      rcases List.mem_cons.mp ((insertByKey_perm key x acc).subset ha) with rfl | ha
      · exact hx y hy
      · exact hties a ha y (List.mem_cons_of_mem x hy)
  exact insertAll xs [] h .nil fun _ ha => nomatch ha

end

/-! ## One occurrence (R146, R147) -/

/-- The first three tests of R146: the gate, the fired marker, the pending list. -/
def Blocked (s : State) (id : Nat) (c : CueEntry) : Prop :=
  c.gate < s.level ∨ (c.every = false ∧ c.fired = true) ∨ ∃ w ∈ s.cues.waiting, w.cue = id

section
variable {s : State} {id : Nat} {c : CueEntry} (hc : s.cues.table[id]? = some c)
include hc

theorem cueOccur_blocked (h : Blocked s id c) : cueOccur s id = s := by
  rw [cueOccur, cueOccurBy, hc]
  exact if_pos (by simpa [Blocked, or_assoc] using Or.inr h)

theorem cueOccur_unblocked (he : c.enabled = true) (h : ¬ Blocked s id c) : cueOccur s id
    = if 16 ≤ s.cues.waiting.length then dropCue s else fireCue id c s := by
  rw [cueOccur, cueOccurBy, hc]
  exact if_neg (by simpa [Blocked, or_assoc, he] using h)

theorem fireCue_fired : (fireCue id c s).cues.table[id]? = some { c with fired := c.fired || !c.every } := by
  rw [fireCue, updateAt, List.getElem?_modify_eq, hc]
  rfl

end

theorem fireCue_others (id : Nat) (c : CueEntry) (s : State) {i : Nat} (h : i ≠ id) :
    (fireCue id c s).cues.table[i]? = s.cues.table[i]? := List.getElem?_modify_ne _ _ h.symm

/-! ## The cues of one trigger kind -/

theorem zipIdx_rising {α : Type} (xs : List α) : xs.zipIdx.Pairwise fun a b => a.2 < b.2 := by
  have h : (xs.zipIdx.map Prod.snd).Pairwise (· < ·) := by
    rw [List.zipIdx_map_snd]
    exact List.pairwise_lt_range'
  exact List.pairwise_map.mp h

theorem cuesWhere_rising (p : CueTrigger → Bool) (s : State) : (cuesWhere p s).Pairwise fun i j => i < j := by
  refine List.pairwise_filterMap.mpr ((zipIdx_rising s.cues.table).imp fun {a b} hab i hi j hj => ?_)
  have keeps : ∀ {q : CueEntry × Nat} {k : Nat}, (if q.1.enabled && p q.1.trigger then some q.2 else none) = some k →
      q.2 = k := fun h => by
    split at h
    · exact Option.some.inj h
    · exact nomatch h
  rw [← keeps hi, ← keeps hj]
  exact hab

theorem mem_cuesWhere {p : CueTrigger → Bool} {s : State} {i : Nat} : i ∈ cuesWhere p s
    ↔ ∃ c, s.cues.table[i]? = some c ∧ c.enabled = true ∧ p c.trigger = true := by
  simp [cuesWhere, List.mem_zipIdx_iff_getElem?, and_assoc]

/-! ## The cues of the new ground (R149) -/

theorem triggerPlace_iff {r : Route} {t : CueTrigger} {x later : Nat} : triggerPlace r t = some (x, later)
    ↔ (later = 0 ∧ ∃ z e, t = .zoneEnter z ∧ r.entry z = some e ∧ x = 1000 * e)
      ∨ (later = 1 ∧ ∃ g o, t = .position g o ∧ g < r.segments.length ∧ x = 1000 * (r.startOf g + o)) := by
  have swap : ∀ y m : Nat, y = x ∧ m = later ↔ later = m ∧ x = y := fun _ _ => by
    rw [and_comm, eq_comm, @eq_comm _ x]
  unfold triggerPlace
  split
  case h_1 z =>
    cases he : r.entry z with
    | none => simp [he]
    | some e => simpa [he] using swap (1000 * e) 0
  case h_2 g o =>
    split
    · rename_i hg
      simpa [hg] using swap (1000 * (r.startOf g + o)) 1
    · rename_i hg
      simp [hg]
  all_goals simp

/-- Of two triggers at one place a ZONE_ENTER comes first. -/
theorem triggerPlace_later {r : Route} {t : CueTrigger} {x later : Nat} (h : triggerPlace r t = some (x, later)) :
    later ≤ 1 := by
  rcases triggerPlace_iff.mp h with ⟨e, -⟩ | ⟨e, -⟩ <;> omega

/-- How far a forward move from p has gone when it carries over the place x (R37). -/
def groundTo (r : Route) (p x : Nat) : Nat := if ahead (1000 * r.len) p x = 0 then 1000 * r.len else ahead (1000 * r.len) p x

/-- The key by which a cue of the new ground is put in route order, with its cue id. -/
def groundEntry (r : Route) (p f : Nat) (q : CueEntry × Nat) : Option (Nat × Nat) :=
  match triggerPlace r q.1.trigger with
  | none => none
  | some (x, later) =>
    if q.1.enabled && spanHas r.loop p f x then some (2 * groundTo r p x + later, q.2) else none

theorem groundCues_eq (r : Route) (p f : Nat) (s : State) : groundCues r (some (p, f)) s
    = (sortByKey Prod.fst (s.cues.table.zipIdx.filterMap (groundEntry r p f))).map Prod.snd := rfl

theorem groundEntry_iff {r : Route} {p f : Nat} {q : CueEntry × Nat} {a : Nat × Nat} : groundEntry r p f q = some a
    ↔ ∃ x later, q.1.enabled = true ∧ triggerPlace r q.1.trigger = some (x, later) ∧ groundTo r p x ≤ f
      ∧ a = (2 * groundTo r p x + later, q.2) := by
  unfold groundEntry
  have hspan : ∀ x, spanHas r.loop p f x = true ↔ groundTo r p x ≤ f := fun x => spanHas_iff
  split
  · rename_i h
    simp [h]
  · rename_i x later h
    constructor
    · intro ha
      split at ha
      · rename_i hb
        obtain ⟨he, hf⟩ := Bool.and_eq_true_iff.mp hb
        exact ⟨x, later, he, h, (hspan x).mp hf, (Option.some.inj ha).symm⟩
      · exact nomatch ha
    · rintro ⟨y, m, he, hy, hf, rfl⟩
      obtain ⟨rfl, rfl⟩ : x = y ∧ later = m := Prod.mk.inj (Option.some.inj (h.symm.trans hy))
      exact if_pos (by rw [he, (hspan x).mpr hf]; rfl)

/-- The entries of the new ground in the order in which their cues occur. -/
theorem mem_groundEntries {r : Route} {p f : Nat} {s : State} {a : Nat × Nat} :
    a ∈ sortByKey Prod.fst (s.cues.table.zipIdx.filterMap (groundEntry r p f))
      ↔ ∃ c x later, s.cues.table[a.2]? = some c ∧ c.enabled = true ∧ triggerPlace r c.trigger = some (x, later)
        ∧ groundTo r p x ≤ f ∧ a.1 = 2 * groundTo r p x + later := by
  rw [(sortByKey_perm_rising _ _).1.mem_iff, List.mem_filterMap]
  constructor
  · rintro ⟨q, hq, ha⟩
    obtain ⟨x, later, he, hplace, hf, rfl⟩ := groundEntry_iff.mp ha
    exact ⟨q.1, x, later, List.mem_zipIdx_iff_getElem?.mp hq, he, hplace, hf, rfl⟩
  · rintro ⟨c, x, later, hc, he, hplace, hf, ha⟩
    exact ⟨(c, a.2), List.mem_zipIdx_iff_getElem?.mpr hc,
      groundEntry_iff.mpr ⟨x, later, he, hplace, hf, Prod.ext ha rfl⟩⟩

theorem mem_groundCues {r : Route} {p f : Nat} {s : State} {i : Nat} : i ∈ groundCues r (some (p, f)) s
    ↔ ∃ c x later, s.cues.table[i]? = some c ∧ c.enabled = true ∧ triggerPlace r c.trigger = some (x, later)
      ∧ groundTo r p x ≤ f := by
  rw [groundCues_eq, List.mem_map]
  constructor
  · rintro ⟨a, ha, rfl⟩
    obtain ⟨c, x, later, hc, he, hplace, hf, -⟩ := mem_groundEntries.mp ha
    exact ⟨c, x, later, hc, he, hplace, hf⟩
  · rintro ⟨c, x, later, hc, he, hplace, hf⟩
    exact ⟨(2 * groundTo r p x + later, i), mem_groundEntries.mpr ⟨c, x, later, hc, he, hplace, hf, rfl⟩, rfl⟩

theorem groundEntries_rising (r : Route) (p f : Nat) (s : State) :
    (sortByKey Prod.fst (s.cues.table.zipIdx.filterMap (groundEntry r p f))).Pairwise
      (KeyThen Prod.fst fun a b => a.2 < b.2) := by
  refine sortByKey_keyThen (List.pairwise_filterMap.mpr ((zipIdx_rising s.cues.table).imp fun {a b} hab u hu v hv => ?_))
  obtain ⟨_, _, _, _, _, rfl⟩ := groundEntry_iff.mp hu
  obtain ⟨_, _, _, _, _, rfl⟩ := groundEntry_iff.mp hv
  exact hab

/-- R149: the cues of the new ground stand in route order, ZONE_ENTER before POSITION at one place, and then in cue id
order. -/
theorem groundCues_ordered (r : Route) (p f : Nat) (s : State) :
    (groundCues r (some (p, f)) s).Pairwise fun i j => ∀ c d x y m n, s.cues.table[i]? = some c →
      s.cues.table[j]? = some d → triggerPlace r c.trigger = some (x, m) → triggerPlace r d.trigger = some (y, n) →
      groundTo r p x < groundTo r p y ∨ (groundTo r p x = groundTo r p y ∧ (m < n ∨ (m = n ∧ i < j))) := by
  have key : ∀ {a : Nat × Nat} {c : CueEntry} {x m : Nat},
      a ∈ sortByKey Prod.fst (s.cues.table.zipIdx.filterMap (groundEntry r p f)) → s.cues.table[a.2]? = some c →
      triggerPlace r c.trigger = some (x, m) → a.1 = 2 * groundTo r p x + m ∧ m ≤ 1 := by
    intro a c x m ha hc hplace
    obtain ⟨d, y, n, hd, -, hplace', -, hkey⟩ := mem_groundEntries.mp ha
    obtain rfl : c = d := Option.some.inj (hc.symm.trans hd)
    obtain ⟨rfl, rfl⟩ : x = y ∧ m = n := Prod.mk.inj (Option.some.inj (hplace.symm.trans hplace'))
    exact ⟨hkey, triggerPlace_later hplace⟩
  rw [groundCues_eq, List.pairwise_map]
  refine (groundEntries_rising r p f s).imp_of_mem fun {a b} ha hb hab c d x y m n hc hd hx hy => ?_
  obtain ⟨hkx, hm⟩ := key ha hc hx
  obtain ⟨hky, hn⟩ := key hb hd hy
  rcases hab with hlt | ⟨heq, htie⟩ <;> omega

/-- Settles O53: one occurrence by its tests, and the order in which a position change lets the cues occur. -/
theorem cueOccurs : Obligations.CueOccurs := by
  refine ⟨fun s id c hc he => ⟨cueOccur_blocked hc, fun hgate honce hout => ?_⟩,
    fun s p => ⟨rfl, cuesWhere_rising p s, fun _ => mem_cuesWhere⟩,
    fun r ch s => ⟨fun h => ?_, fun h => ?_⟩, fun _ _ => rfl,
    fun r p f s => ⟨fun _ => mem_groundCues, groundCues_ordered r p f s⟩, fun _ _ _ _ => triggerPlace_iff⟩
  · have hfree : ¬ Blocked s id c := by
      rintro (h | ⟨hevery, hfired⟩ | ⟨w, hw, h⟩)
      · exact absurd hgate (Nat.not_le.mpr h)
      · exact honce.elim (fun h => nomatch hevery.symm.trans h) fun h => nomatch hfired.symm.trans h
      · exact hout w hw h
    refine ⟨fun hfull => (cueOccur_unblocked hc he hfree).trans (if_pos hfull), fun hroom => ?_⟩
    exact ⟨(fireCue id c s).cues, (cueOccur_unblocked hc he hfree).trans (if_neg (Nat.not_le.mpr hroom)),
      fireCue_fired hc, fun i hi => fireCue_others id c s hi, insertByKey_split WaitingCue.due _ s.cues.waiting⟩
  · exact if_neg (by rw [h]; exact Bool.false_ne_true)
  · exact if_pos h

end Sys2Proof.SceneCues
end

section
/-! PENDING_ADVANCE (R148) and the three actions: LINK_CUE with the transmit queue (R6, R7, R154), SOUND_START (R155) and
SOUND_STOP (R156). -/
namespace Sys2Proof.SceneCues
open Sys2Proof.Machine Sys2Proof.Safety Sys2Proof.Standing
open Sys2Proof.RideLink (requestChannel_frame settle_link latched_settle_latch)

/-! ## Beside the link -/

/-- `Aside` but for the link, which a served LINK_CUE may change. -/
def AsideLink (s t : State) : Prop := Aside { s with link := t.link } t

/-- The side effects do not read the link. -/
theorem aside_withLink {s t : State} (h : Aside s t) (l : Link) : Aside { s with link := l } { t with link := l } :=
  { h with outside := { h.outside with link := rfl }
           sizes := { h.sizes with } }

theorem AsideLink.refl (s : State) : AsideLink s s := Aside.refl s

theorem AsideLink.trans {a b c : State} (h : AsideLink a b) (g : AsideLink b c) : AsideLink a c :=
  (aside_withLink h c.link).trans g

theorem AsideLink.of_aside {s t : State} (h : Aside s t) : AsideLink s t := by
  have e : { s with link := t.link } = s := by rw [h.outside.link]
  rw [AsideLink, e]
  exact h

theorem AsideLink.of_calm {s t : State} (h : Calm s t) : AsideLink s t := .of_aside h.toAside

theorem offerCue_asideLink (id dest : Nat) (body : List Byte) (s : State) : AsideLink s (offerCue id dest body s) := by
  unfold offerCue
  dsimp only
  split
  · obtain ⟨a, n, d, e⟩ := requestChannel_frame
      { s with link := { s.link with queue := joinCue (.cue s.now id dest body) s.link.queue } }
    rw [e]
    exact (Calm.draws _ d).toAside
  · split
    · exact Aside.refl _
    · exact .of_calm (dropCue_calm s)

theorem executeCue_asideLink (id : Nat) (s : State) : AsideLink s (executeCue id s) := by
  unfold executeCue
  split
  · exact .refl s
  · split
    · exact offerCue_asideLink _ _ _ s
    · exact .of_calm (soundStart_calm _ _ _ _ _ s)
    · exact .of_calm (soundStop_calm _ _ s)
    · exact .refl s

theorem unlist_calm (w : WaitingCue) (s : State) : Calm s (unlist w s) :=
  Calm.cues s _ rfl (Nat.le_trans List.length_erase_le)

theorem serveCue_asideLink (s : State) (w : WaitingCue) : AsideLink s (serveCue s w) := by
  unfold serveCue
  split
  · exact (AsideLink.of_calm (unlist_calm w s)).trans
      ((executeCue_asideLink w.cue (unlist w s)).trans (.of_aside (settle_aside _)))
  · exact .refl s

theorem servePending_asideLink (s : State) : AsideLink s (servePending s) := by
  unfold servePending
  generalize s.cues.waiting.filter (fun w => w.due ≤ s.now) = ws
  induction ws generalizing s with
  | nil => exact .refl s
  | cons w ws ih => exact (serveCue_asideLink s w).trans (ih _)

/-! ## The entries that are due (R148) -/

theorem exec_pendingAdvance_held {s : State} (h : s.resetHeld = true) : exec .pendingAdvance s = .next s :=
  congrArg _ (if_pos h)

theorem exec_pendingAdvance {s : State} (h : s.resetHeld = false) :
    exec .pendingAdvance s = .next (settle (servePending (tick s))) :=
  congrArg _ (if_neg (by rw [h]; exact Bool.false_ne_true))

theorem servePending_nothing {s : State} (h : ∀ w ∈ s.cues.waiting, s.now < w.due) : servePending s = s := by
  have hnone : s.cues.waiting.filter (fun w => w.due ≤ s.now) = [] :=
    List.filter_eq_nil_iff.mpr fun w hw => by simpa using h w hw
  rw [servePending, hnone]
  rfl

/-- The state in which the sole entry of the pending list is served. -/
def served (s : State) : State := { s with now := s.now + 1, cues := { s.cues with waiting := [] } }

/-- What a cue with this action does when it executes. -/
def perform (id : Nat) (a : CueAction) (s : State) : State :=
  match a with
  | .linkCue scene cue => offerCue id scene [byteOf cue, byteOf s.tracker.lap.toNat] s
  | .soundStart clip priority gains lock => soundStart id clip priority gains lock s
  | .soundStop named => soundStop id named s
  | .invalid => s

theorem perform_linkCue (id scene cue : Nat) (s : State) : perform id (.linkCue scene cue) s
    = offerCue id scene [byteOf cue, byteOf s.tracker.lap.toNat] s := rfl

theorem perform_soundStart (id clip priority : Nat) (gains : List Nat) (lock : Option SceneLock) (s : State) :
    perform id (.soundStart clip priority gains lock) s = soundStart id clip priority gains lock s := rfl

theorem perform_soundStop (id named : Nat) (s : State) : perform id (.soundStop named) s = soundStop id named s := rfl

theorem executeCue_eq {s : State} {id : Nat} {c : CueEntry} (hc : s.cues.table[id]? = some c) :
    executeCue id s = perform id c.action s := by
  rw [executeCue, hc]
  rfl

/-- R148: the sole entry, when due, leaves the list and its cue's action is performed. -/
theorem exec_pendingAdvance_sole {s : State} {w : WaitingCue} {c : CueEntry} {a : CueAction} (hr : s.resetHeld = false)
    (hw : s.cues.waiting = [w]) (hdue : w.due ≤ s.now + 1) (hc : s.cues.table[w.cue]? = some c) (ha : c.action = a) :
    exec .pendingAdvance s = .next (settle (settle (perform w.cue a (served s)))) := by
  have hlisted : unlist w (tick s) = served s := by simp [unlist, tick, served, hw]
  have hserve : servePending (tick s) = settle (executeCue w.cue (served s)) := by
    simp [servePending, serveCue, tick, hw, hdue, ← hlisted]
  rw [exec_pendingAdvance hr, hserve, executeCue_eq (s := served s) hc, ha]

theorem settle_twice {s : State} (h : Still s) : settle (settle s) = s := by
  rw [h.settle, h.settle]

theorem still_tick {s : State} (h : Still s) : Still (tick s) := still_of_eq h rfl rfl rfl rfl rfl rfl

theorem still_served {s : State} (h : Still s) : Still (served s) := still_of_eq h rfl rfl rfl rfl rfl rfl

/-- What the arbiter leaves, where no entry and no judgement is outstanding, is at rest. -/
theorem still_arbitrate {s : State} (hn : s.motion.notices = []) (hj : Judged s) : Still (arbitrate s) := by
  rw [← settle_quiet hn ((judgeStanding_eq_iff s).mpr hj)]
  exact settle_still s (by rw [hn]; exact Nat.zero_le _)

/-! ## LINK_CUE (R154, R6, R7) -/

theorem joinCue_ordered (f : QueuedFrame) (q : List QueuedFrame) :
    joinCue f (q.filter QueuedFrame.isCue ++ q.filter fun g => !g.isCue) = joinCue f q := by
  simp [joinCue, List.filter_append, List.filter_filter]

/-- R7: the newest REPORT stands last. -/
theorem dropReport_last (q : List QueuedFrame) (source : Nat) (body : List Byte) :
    dropReport (q ++ [.report source body])
      = some (source, q.filter QueuedFrame.isCue ++ q.filter fun g => !g.isCue) := by
  simp [dropReport, List.filter_append, QueuedFrame.isCue]

theorem dropReport_cues {q : List QueuedFrame} (h : ∀ g ∈ q, g.isCue = true) : dropReport q = none := by
  have hnone : q.filter (fun g => !g.isCue) = [] := List.filter_eq_nil_iff.mpr fun g hg => by simp [h g hg]
  rw [dropReport, hnone]
  rfl

section
variable {s : State} (id dest : Nat) (body : List Byte)

theorem offerCue_room (h : s.link.queue.length < 8) : offerCue id dest body s
    = requestChannel { s with link := { s.link with queue := joinCue (.cue s.now id dest body) s.link.queue } } := if_pos h

theorem offerCue_displaces (hfull : 8 ≤ s.link.queue.length) {q : List QueuedFrame} {source : Nat} {report : List Byte}
    (hq : s.link.queue = q ++ [.report source report]) : offerCue id dest body s
      = { s with link := { s.link with
          queue := joinCue (.cue s.now id dest body) q
          lastRefusal := some { kind := .query, reason := .queueFull, source := source } } } := by
  rw [offerCue]
  dsimp only
  rw [if_neg (show ¬ s.link.queue.length < Config.queueCap from Nat.not_lt.mpr hfull), hq, dropReport_last]
  dsimp only
  rw [joinCue_ordered]
  rfl

theorem offerCue_dropped (hfull : 8 ≤ s.link.queue.length) (h : ∀ g ∈ s.link.queue, g.isCue = true) :
    offerCue id dest body s = dropCue s := by
  rw [offerCue]
  dsimp only
  rw [if_neg (show ¬ s.link.queue.length < Config.queueCap from Nat.not_lt.mpr hfull), dropReport_cues h]

end

/-! ## SOUND_START (R155, R163) -/

/-- A refused request takes no voice. -/
theorem startVoice_refused {s : State} {req : StartRequest} (h : (startVoice s req).started = false) :
    startVoice s req = { engine := s.sound, started := false, stolen := none, ended := false } := by
  unfold startVoice at h ⊢
  split
  · rfl
  · rename_i hclip
    rw [hclip] at h
    dsimp only at h ⊢
    split
    · rfl
    · rename_i htarget
      rw [htarget] at h
      dsimp only at h
      split at h <;> exact nomatch h

theorem requestVoice_unstolen {s : State} {req : StartRequest} (h : (startVoice s req).stolen = none) :
    requestVoice req s = (arbitrate { s with sound := (startVoice s req).engine }, startVoice s req) := by
  rw [requestVoice, requestVoiceBy, h]

theorem stealEvent_eq (r : StartResult) (s : State) :
    stealEvent r s = if r.stolen.isSome then tally .voiceSteal 1 s else s := rfl

section
variable {s : State} {id clip priority : Nat} {gains : List Nat} {lock : Option SceneLock}

/-- Where no voice is stolen and the voice does not end at once, the request and the arbiter's grant are all. -/
theorem soundStart_plain {r : StartResult}
    (h : startVoice s { clip := clip, priority := priority, gains := gains, lock := lock, tag := .cue id } = r)
    (hstolen : r.stolen = none) (hended : r.ended = false) :
    soundStart id clip priority gains lock s = arbitrate { s with sound := r.engine } := by
  subst h
  rw [soundStart, requestVoice_unstolen hstolen]
  dsimp only
  rw [hended, stealEvent_eq, hstolen]
  rfl

theorem soundStart_refused (hs : Still s)
    (h : (startVoice s { clip := clip, priority := priority, gains := gains, lock := lock, tag := .cue id }).started
      = false) : soundStart id clip priority gains lock s = s :=
  (soundStart_plain (startVoice_refused h) rfl rfl).trans hs.granted

end

/-- R157: a completed voice of a cue lets the cues that wait for it occur. -/
theorem endReport_cue (id : Nat) (s : State) :
    endReport (.cue id) true s = occurWhere (fun q => q = .cueDone id) s := rfl

/-! ## SOUND_STOP (R156, R171) -/

/-- Where no voice meets the test, none is stopped. -/
theorem stopVoices_none {p : Voice → Bool} {e : SoundEngine} (h : ∀ w ∈ e.voices, p w = false) :
    stopVoices p e = (e, []) := by
  refine List.foldlRecOn (motive := (· = (e, []))) (List.range e.voices.length) _ rfl fun acc hacc v _ => ?_
  subst hacc
  dsimp only
  split
  · rfl
  · rename_i w hw
    rw [h w (List.mem_of_getElem? hw)]
    rfl

theorem soundStop_silent {s : State} {id named : Nat} (hs : Still s)
    (h : ∀ v ∈ s.sound.voices, v.state = .idle ∨ v.tag ≠ .cue named)
    (hdone : cuesWhere (fun t => t = .cueDone id) s = []) : soundStop id named s = s := by
  have hnone : ∀ w ∈ s.sound.voices, (w.state != .idle && decide (w.tag = .cue named)) = false := fun w hw => by
    rcases h w hw with e | e <;> simp [e]
  have hgranted : arbitrate { s with sound := s.sound } = s := hs.granted
  rw [soundStop, stopVoices_none hnone]
  dsimp only
  rw [hgranted, cueDone, occurWhere, occurWhereBy]
  show (cuesWhere (fun t => t = .cueDone id) s).foldl (cueOccurBy atOnce) s = s
  rw [hdone]
  rfl

/-! ## The command -/

section
variable {s : State} {w : WaitingCue} {c : CueEntry} (hr : s.resetHeld = false) (hw : s.cues.waiting = [w])
  (hdue : w.due ≤ s.now + 1) (hc : s.cues.table[w.cue]? = some c)
include hr hw hdue hc

/-- An action whose effects are side effects only. -/
theorem exec_performed_aside {a : CueAction} {u : State} (ha : c.action = a) (h : perform w.cue a (served s) = u)
    (hu : Calm (served s) u) :
    ∃ t, exec .pendingAdvance s = .next t ∧ Aside (served s) t ∧ t = settle (settle u) :=
  ⟨_, by rw [exec_pendingAdvance_sole hr hw hdue hc ha, h], (hu.toAside.trans (settle_aside _)).trans (settle_aside _), rfl⟩

/-- An action that leaves nothing outstanding. -/
theorem exec_performed_still {a : CueAction} {t : State} (ha : c.action = a) (h : perform w.cue a (served s) = t)
    (ht : Still t) : exec .pendingAdvance s = .next t := by
  rw [exec_pendingAdvance_sole hr hw hdue hc ha, h, settle_twice ht]

section
variable {scene cue : Nat} (ha : c.action = .linkCue scene cue)
include ha

theorem exec_linkCue_room (hs : Still s) (hroom : s.link.queue.length < 8) : ∃ t, exec .pendingAdvance s = .next t
    ∧ t.link.queue = joinCue (.cue (s.now + 1) w.cue scene [byteOf cue, byteOf s.tracker.lap.toNat]) s.link.queue
    ∧ t = { served s with
        draws := t.draws
        link := { s.link with queue := t.link.queue, access := t.link.access, slots := t.link.slots } } := by
  have hjoins := offerCue_room (s := served s) w.cue scene [byteOf cue, byteOf s.tracker.lap.toNat] hroom
  obtain ⟨a, n, d, e⟩ := requestChannel_frame { served s with link := { s.link with
    queue := joinCue (.cue (s.now + 1) w.cue scene [byteOf cue, byteOf s.tracker.lap.toNat]) s.link.queue } }
  exact ⟨_, exec_performed_still hr hw hdue hc ha (hjoins.trans e) (still_of_eq hs rfl rfl rfl rfl rfl rfl), rfl, rfl⟩

theorem exec_linkCue_displaces (hs : Still s) (hfull : 8 ≤ s.link.queue.length) {q : List QueuedFrame} {source : Nat}
    {body : List Byte} (hq : s.link.queue = q ++ [.report source body]) : exec .pendingAdvance s
      = .next { served s with link := { s.link with
          queue := joinCue (.cue (s.now + 1) w.cue scene [byteOf cue, byteOf s.tracker.lap.toNat]) q
          lastRefusal := some { kind := .query, reason := .queueFull, source := source } } } :=
  exec_performed_still hr hw hdue hc ha (offerCue_displaces (s := served s) w.cue scene _ hfull hq)
    (still_of_eq hs rfl rfl rfl rfl rfl rfl)

theorem exec_linkCue_dropped (htab : TablesOk s) (hfull : 8 ≤ s.link.queue.length)
    (hcues : ∀ g ∈ s.link.queue, g.isCue = true) : ∃ t, exec .pendingAdvance s = .next t ∧ Latched t 17
      ∧ Aside (served s) t ∧ t = settle (settle (latch 17 (tally .cueDropped 1 (served s)))) := by
  have hdrops := offerCue_dropped (s := served s) w.cue scene [byteOf cue, byteOf s.tracker.lap.toNat] hfull hcues
  have hlength := (tally_calm .cueDropped 1 (served s)).grows.length
  obtain ⟨t, ht, haside, rfl⟩ := exec_performed_aside hr hw hdue hc ha
    ((perform_linkCue w.cue scene cue (served s)).trans hdrops) (dropCue_calm _)
  exact ⟨_, ht, (latched_settle_latch (by decide) (by decide) htab hlength).aside (settle_aside _), haside, rfl⟩

end

end

/-- Settles O54: the due entries serve beside the link and the side effects, and each action is performed by the queue's or
the voices' own rules. -/
theorem msAdvances : Obligations.MsAdvances := by
  refine ⟨fun s => ⟨exec_pendingAdvance_held, fun hr => ?_, fun hr hnone hs => ?_, fun w c hr hw hdue hc hs => ?_⟩,
    fun _ _ _ _ _ _ => by simp only [soundStart, stealEvent_eq, endReport_cue], fun _ _ _ => rfl⟩
  · have h : AsideLink (tick s) (settle (servePending (tick s))) :=
      (servePending_asideLink (tick s)).trans (.of_aside (settle_aside _))
    exact ⟨_, exec_pendingAdvance hr, h.outside.now, h⟩
  · rw [exec_pendingAdvance hr, servePending_nothing hnone, (still_tick hs).settle]
    rfl
  · have hrest := still_served hs
    refine ⟨fun scene cue ha => ⟨exec_linkCue_room hr hw hdue hc ha hs,
        fun q source body hfull hq => exec_linkCue_displaces hr hw hdue hc ha hs hfull hq,
        fun hfull hcues htab => exec_linkCue_dropped hr hw hdue hc ha htab hfull hcues⟩,
      fun clip priority gains lock ha => ⟨fun hno => ?_, fun _ hstolen hended => ?_, ?_⟩,
      fun named ha => ⟨fun hnone hdone => ?_, ?_⟩, fun ha => ?_⟩
    · exact exec_performed_still hr hw hdue hc ha (soundStart_refused hrest hno) hrest
    · exact exec_performed_still hr hw hdue hc ha (soundStart_plain rfl hstolen hended)
        (still_arbitrate hs.notices ((still_judged hs).of_eq rfl rfl rfl))
    · exact exec_performed_aside hr hw hdue hc ha (perform_soundStart _ _ _ _ _ _) (soundStart_calm _ _ _ _ _ _)
    · exact exec_performed_still hr hw hdue hc ha (soundStop_silent hrest hnone hdone) hrest
    · exact exec_performed_aside hr hw hdue hc ha (perform_soundStop _ _ _) (soundStop_calm _ _ _)
    · exact exec_performed_still hr hw hdue hc ha rfl hrest

end Sys2Proof.SceneCues
end

section
/-! What the engine's operations do to each voice (R162, R168): a voice that is freed is IDLE, and every other keeps all but a
start order that may fall. -/
namespace Sys2Proof.OnboardSound
open Sys2Proof.Machine Sys2Proof.Safety

/-! ## Reads ended (R168) -/

theorem endRead_not_reading (e : SoundEngine) (v : Nat) : (e.endRead v).reading v = false := by
  unfold SoundEngine.endRead
  split
  · rfl
  · rename_i h
    exact Bool.eq_false_iff.mpr h

theorem reading_of_read {e f : SoundEngine} (h : f.read = e.read) (v : Nat) : f.reading v = e.reading v := by
  unfold SoundEngine.reading
  rw [h]

/-! ## A voice becomes IDLE (R162) -/

section
variable {e : SoundEngine} {v i : Nat} {w x : Voice}

theorem free_idle (hw : e.voices[v]? = some w) (hs : w.state = .idle) : e.free v = e := by
  rw [SoundEngine.free, hw]
  exact if_pos hs

theorem free_active (hw : e.voices[v]? = some w) (hs : w.state ≠ .idle) : e.free v = { e.endRead v with
    voices := (e.voices.map fun q => if w.rank < q.rank then { q with rank := q.rank - 1 } else q).set v Voice.idle } := by
  rw [SoundEngine.free, hw]
  exact if_neg hs

theorem free_self (hw : e.voices[v]? = some w) (hs : w.state ≠ .idle) : (e.free v).voices[v]? = some Voice.idle := by
  obtain ⟨hlt, _⟩ := List.getElem?_eq_some_iff.mp hw
  rw [free_active hw hs]
  exact List.getElem?_set_self (by rwa [List.length_map])

theorem free_other (hw : e.voices[v]? = some w) (hs : w.state ≠ .idle) (hi : i ≠ v) (hx : e.voices[i]? = some x) :
    (e.free v).voices[i]? = some { x with rank := if w.rank < x.rank then x.rank - 1 else x.rank } := by
  rw [free_active hw hs]
  dsimp only
  rw [List.getElem?_set_ne hi.symm, List.getElem?_map, hx]
  refine congrArg some ?_
  dsimp only
  by_cases h : w.rank < x.rank <;> simp only [h, if_true, if_false]

theorem free_not_reading (hw : e.voices[v]? = some w) (hs : w.state ≠ .idle) : (e.free v).reading v = false := by
  rw [free_active hw hs, ← endRead_not_reading e v]
  exact reading_of_read rfl v

end

/-! ## Start orders (R162) -/

/-- The voice as it was, but for a start order that may have fallen. -/
def Lowered (w : Voice) (after : Option Voice) : Prop := ∃ k, k ≤ w.rank ∧ after = some { w with rank := k }

theorem Lowered.of_eq {w : Voice} {after : Option Voice} (h : after = some w) : Lowered w after := ⟨w.rank, Nat.le_refl _, h⟩

theorem Lowered.trans {w : Voice} {mid after : Option Voice} (h : Lowered w mid)
    (g : ∀ x, mid = some x → Lowered x after) : Lowered w after := by
  obtain ⟨k, hk, rfl⟩ := h
  obtain ⟨j, hj, rfl⟩ := g _ rfl
  exact ⟨j, Nat.le_trans hj hk, rfl⟩

/-- R162: freeing a voice does no more to another one than lower its start order. -/
theorem free_lowers {e : SoundEngine} {v i : Nat} {x : Voice} (hi : i ≠ v) (hx : e.voices[i]? = some x) :
    Lowered x (e.free v).voices[i]? := by
  cases hv : e.voices[v]? with
  | none => exact .of_eq (by rw [SoundEngine.free, hv]; exact hx)
  | some w =>
    by_cases hs : w.state = .idle
    · exact .of_eq (by rw [free_idle hv hs]; exact hx)
    · exact ⟨_, by split <;> omega, free_other hv hs hi hx⟩

theorem free_keeps_idle {e : SoundEngine} {v i : Nat} (hx : e.voices[i]? = some Voice.idle) :
    (e.free v).voices[i]? = some Voice.idle := by
  by_cases hi : i = v
  · subst hi
    rw [free_idle hx rfl, hx]
  · obtain ⟨k, hk, h⟩ := free_lowers hi hx
    obtain rfl : k = 0 := Nat.le_zero.mp hk
    exact h

/-! ## Several voices become IDLE -/

theorem frees_keep_idle {vs : List Nat} {e : SoundEngine} {i : Nat} (hx : e.voices[i]? = some Voice.idle) :
    (vs.foldl SoundEngine.free e).voices[i]? = some Voice.idle := by
  induction vs generalizing e with
  | nil => exact hx
  | cons v vs ih => exact ih (free_keeps_idle hx)

theorem frees_lower {vs : List Nat} {e : SoundEngine} {i : Nat} {x : Voice} (hi : i ∉ vs) (hx : e.voices[i]? = some x) :
    Lowered x (vs.foldl SoundEngine.free e).voices[i]? := by
  induction vs generalizing e x with
  | nil => exact .of_eq hx
  | cons v vs ih =>
    rw [List.mem_cons, not_or] at hi
    exact (free_lowers hi.1 hx).trans fun y hy => ih hi.2 hy

theorem frees_mem {vs : List Nat} {e : SoundEngine} {v : Nat} {w : Voice} (hv : v ∈ vs) (hw : e.voices[v]? = some w)
    (hs : w.state ≠ .idle) : (vs.foldl SoundEngine.free e).voices[v]? = some Voice.idle := by
  induction vs generalizing e w with
  | nil => exact absurd hv List.not_mem_nil
  | cons u vs ih =>
    by_cases hu : v = u
    · subst hu
      exact frees_keep_idle (e := e.free v) (free_self hw hs)
    · obtain ⟨k, _, hk⟩ := free_lowers hu hw
      exact ih ((List.mem_cons.mp hv).resolve_left hu) hk hs

end Sys2Proof.OnboardSound
end

section
/-! OUTPUT_FRAME (R169): what one voice gives and becomes in a frame (R166, R169, R170, R172, R175), the mix (R177), and the
engine after the frame. -/
namespace Sys2Proof.OnboardSound
open Sys2Proof.Machine Sys2Proof.Safety Sys2Proof.Standing

/-! ## The sample at a place (R169) -/

theorem holds_iff (b : Block) (x : Nat) : (decide (b.start ≤ x) && decide (x < b.start + b.samples.length)) = true
    ↔ b.start ≤ x ∧ x < b.start + b.samples.length := by
  rw [Bool.and_eq_true, decide_eq_true_iff, decide_eq_true_iff]

theorem sampleAt_some {bufs : List Block} {x : Nat} {y : Int} (h : sampleAt bufs x = some y) :
    ∃ b ∈ bufs, b.start ≤ x ∧ x < b.start + b.samples.length ∧ y = (b.samples.getD (x - b.start) 0).toInt := by
  unfold sampleAt at h
  split at h
  · exact nomatch h
  · rename_i b hb
    have hholds := List.find?_some hb
    simp only [holds_iff] at hholds
    obtain ⟨hlow, hhigh⟩ := hholds
    exact ⟨b, List.mem_of_find?_eq_some hb, hlow, hhigh, (Option.some.inj h).symm⟩

theorem sampleAt_none_iff (bufs : List Block) (x : Nat) :
    sampleAt bufs x = none ↔ ∀ b ∈ bufs, ¬ (b.start ≤ x ∧ x < b.start + b.samples.length) := by
  simp only [← holds_iff, ← List.find?_eq_none]
  unfold sampleAt
  split <;> simp_all

theorem sample_crossfade {w : Voice} {x left : Nat} {b : Block} (h : w.jump = .crossfade x b left) :
    w.sample = ((sampleAt w.bufs w.cursor).getD 0 + (sampleAt [b] x).getD 0 + 1) / 2 := by
  rw [Voice.sample, h]

theorem sample_plain {w : Voice} (h : ∀ x b left, w.jump ≠ .crossfade x b left) :
    w.sample = (sampleAt w.bufs w.cursor).getD 0 := by
  unfold Voice.sample
  split
  · rename_i x b left hj
    exact absurd hj (h x b left)
  · rfl
  · rfl

/-! ## One voice in one frame (R169, R170, R172, R175) -/

theorem fadeOn_fst (w : Voice) :
    (fadeOn w).1 = { w with fadeStep := if w.state = .fading then w.fadeStep - 1 else w.fadeStep } := by
  unfold fadeOn
  split <;> rfl

theorem fadeOn_snd (w : Voice) : (fadeOn w).2 = decide (w.state = .fading ∧ w.fadeStep = 0) := by
  unfold fadeOn
  by_cases h : w.state = .fading <;> simp [h]

/-- The place that decides a voice's end: within a crossfade the new stream's (log 17). -/
def endPlace (w : Voice) : Nat :=
  match w.jump with
  | .crossfade x _ _ => x
  | .none | .pending _ _ => w.cursor

section
variable (clip : Clip) (reading : Bool) {w : Voice}

theorem voiceFrame_sample (w : Voice) : (voiceFrame clip reading w).sample = w.sample := by
  unfold voiceFrame
  split <;> rfl

theorem voiceFrame_ended (w : Voice) : (voiceFrame clip reading w).ended
    = endOf w (!clip.loops && decide (clip.length ≤ endPlace w + 1)) (decide (w.state = .fading ∧ w.fadeStep = 0)) := by
  unfold voiceFrame endPlace
  cases w.jump with
  | crossfade x b left =>
    dsimp only
    rw [fadeOn_snd]
    split <;> rfl
  | none => dsimp only; rw [fadeOn_snd]
  | pending target n => dsimp only; rw [fadeOn_snd]

/-- R172: the fade step after a frame. -/
def nextFadeStep (w : Voice) : Nat := if w.state = .fading then w.fadeStep - 1 else w.fadeStep

theorem voiceFrame_none (h : w.jump = .none) : (voiceFrame clip reading w).voice = { w with
    cursor := w.cursor + 1, bufs := liveBufs w.bufs (w.cursor + 1), fetch := nextFetch reading w.fetch (w.cursor + 1)
    underrun := (sampleAt w.bufs w.cursor).isNone, fadeStep := nextFadeStep w } := by
  rw [voiceFrame, h]
  dsimp only
  rw [fadeOn_fst]
  simp [nextFadeStep]

theorem voiceFrame_pending {target n : Nat} (h : w.jump = .pending target n) :
    (voiceFrame clip reading w).voice = { w with
      cursor := w.cursor + 1, bufs := liveBufs w.bufs (w.cursor + 1), fetch := max w.fetch (w.cursor + 1)
      jump := .pending target (n + 1), underrun := (sampleAt w.bufs w.cursor).isNone, fadeStep := nextFadeStep w } := by
  rw [voiceFrame, h]
  dsimp only
  rw [fadeOn_fst]
  simp [nextFadeStep, nextFetch]

section
variable {x left : Nat} {b : Block} (h : w.jump = .crossfade x b left)
include h

theorem voiceFrame_crossfade (hl : 1 < left) : (voiceFrame clip reading w).voice = { w with
    cursor := w.cursor + 1, bufs := liveBufs w.bufs (w.cursor + 1), jump := .crossfade (x + 1) b (left - 1)
    underrun := false, fadeStep := nextFadeStep w } := by
  rw [voiceFrame, h]
  dsimp only
  rw [fadeOn_fst, if_neg (Nat.not_le.mpr hl)]
  rfl

/-- R175: the last frame of a crossfade leaves the new stream alone. -/
theorem voiceFrame_crossfade_last (hl : left ≤ 1) : (voiceFrame clip reading w).voice = { w with
    cursor := x + 1, bufs := liveBufs [b] (x + 1), fetch := nextFetch reading w.fetch (x + 1), jump := .none
    underrun := false, fadeStep := nextFadeStep w } := by
  rw [voiceFrame, h]
  dsimp only
  rw [fadeOn_fst, if_pos hl]
  rfl

end

/-- A frame changes the place, the buffers and what is read next, and steps a fade. -/
theorem voiceFrame_changes (w : Voice) : ∃ cursor bufs fetch jump underrun, (voiceFrame clip reading w).voice = { w with
    cursor := cursor, bufs := bufs, fetch := fetch, jump := jump, underrun := underrun, fadeStep := nextFadeStep w } := by
  cases h : w.jump with
  | none => exact ⟨_, _, _, _, _, (voiceFrame_none clip reading h).trans (by rw [h])⟩
  | pending target n => exact ⟨_, _, _, _, _, voiceFrame_pending clip reading h⟩
  | crossfade x b left =>
    rcases Nat.lt_or_ge 1 left with hl | hl
    · exact ⟨_, _, _, _, _, voiceFrame_crossfade clip reading h hl⟩
    · exact ⟨_, _, _, _, _, voiceFrame_crossfade_last clip reading h hl⟩

theorem voiceFrame_eq (w : Voice) : (voiceFrame clip reading w).voice = { w with
    cursor := (voiceFrame clip reading w).voice.cursor
    bufs := (voiceFrame clip reading w).voice.bufs
    fetch := (voiceFrame clip reading w).voice.fetch
    jump := (voiceFrame clip reading w).voice.jump
    underrun := (voiceFrame clip reading w).voice.underrun
    fadeStep := if w.state = .fading then w.fadeStep - 1 else w.fadeStep } := by
  obtain ⟨_, _, _, _, _, h⟩ := voiceFrame_changes clip reading w
  rw [h]
  rfl

theorem voiceFrame_state (w : Voice) : (voiceFrame clip reading w).voice.state = w.state := by
  obtain ⟨_, _, _, _, _, h⟩ := voiceFrame_changes clip reading w
  rw [h]

theorem voiceFrame_rank (w : Voice) : (voiceFrame clip reading w).voice.rank = w.rank := by
  obtain ⟨_, _, _, _, _, h⟩ := voiceFrame_changes clip reading w
  rw [h]

/-- R166: outside the last frame of a crossfade the buffers that end beyond the new position are kept. -/
theorem voiceFrame_bufs (h : ∀ x b left, w.jump = .crossfade x b left → 1 < left) :
    (voiceFrame clip reading w).voice.bufs = liveBufs w.bufs (w.cursor + 1) := by
  cases hj : w.jump with
  | none => rw [voiceFrame_none clip reading hj]
  | pending target n => rw [voiceFrame_pending clip reading hj]
  | crossfade x b left => rw [voiceFrame_crossfade clip reading hj (h x b left hj)]

/-- R169: a frame is of a run without samples when no buffer holds its sample, but within a crossfade (log 17). -/
theorem voiceFrame_underrun (w : Voice) : (voiceFrame clip reading w).voice.underrun = true
    ↔ (∀ x b left, w.jump ≠ .crossfade x b left) ∧ sampleAt w.bufs w.cursor = none := by
  cases hj : w.jump with
  | none => simp [voiceFrame_none clip reading hj]
  | pending target n => simp [voiceFrame_pending clip reading hj]
  | crossfade x b left =>
    rcases Nat.lt_or_ge 1 left with hl | hl
    · simp [voiceFrame_crossfade clip reading hj hl]
    · simp [voiceFrame_crossfade_last clip reading hj hl]

/-- R169: a run begins with a frame without a sample when the frame before was of none. -/
theorem voiceFrame_starves (w : Voice) : (voiceFrame clip reading w).starves = true
    ↔ (∀ x b left, w.jump ≠ .crossfade x b left) ∧ w.underrun = false ∧ sampleAt w.bufs w.cursor = none := by
  unfold voiceFrame
  cases w.jump with
  | crossfade x b left => simp
  | none => simp [and_comm]
  | pending target n => simp [and_comm]

/-! ### The end of a voice (R170, R172) -/

/-- R170: a frame takes the voice past the last sample of a clip that does not loop. -/
def Passes (clip : Clip) (w : Voice) : Prop := clip.loops = false ∧ clip.length ≤ endPlace w + 1

theorem endOf_iff (w : Voice) (passed faded completed : Bool) : endOf w passed faded = some completed
    ↔ (passed = true ∧ completed = decide (w.state = .playing)) ∨ (passed = false ∧ faded = true ∧ completed = false) := by
  cases passed <;> cases faded <;> simp [endOf, eq_comm]

theorem passes_iff (w : Voice) : (!clip.loops && decide (clip.length ≤ endPlace w + 1)) = true ↔ Passes clip w := by
  rw [Bool.and_eq_true, Bool.not_eq_true', decide_eq_true_iff, Passes]

/-- R170: only a PLAYING voice completes, by passing its clip's end. -/
theorem voiceFrame_completes (w : Voice) :
    (voiceFrame clip reading w).ended = some true ↔ w.state = .playing ∧ Passes clip w := by
  rw [voiceFrame_ended, endOf_iff, passes_iff]
  simp [and_comm]

/-- R170, R172: a FADING voice ends without completion, at its clip's end or its fade's. -/
theorem voiceFrame_fades (hs : w.state = .playing ∨ w.state = .fading) : (voiceFrame clip reading w).ended = some false
    ↔ w.state = .fading ∧ (Passes clip w ∨ w.fadeStep = 0) := by
  rw [voiceFrame_ended, endOf_iff, ← Bool.not_eq_true, passes_iff]
  rcases hs with hs | hs
  · simp [hs]
  · simp only [hs, decide_eq_true_iff, true_and]
    by_cases hp : Passes clip w <;> simp [hp]

end
end Sys2Proof.OnboardSound
end

section
/-! OUTPUT_FRAME (R169): the mix (R177), the engine after the frame, and the command. -/
namespace Sys2Proof.OnboardSound
open Sys2Proof.Machine Sys2Proof.Safety Sys2Proof.Standing

/-! ## The frames of the voices (R169) -/

/-- The voice is in the mix. -/
def Sounds (w : Voice) : Prop := w.state = .playing ∨ w.state = .fading

/-- The frame of a voice of the engine, where it sounds. -/
def frameAt (e : SoundEngine) (v : Nat) (w : Voice) : VoiceFrame :=
  voiceFrame ((e.clip w.clip).getD { address := 0, length := 0, loops := false }) (e.reading v) w

section
variable {e : SoundEngine} {v : Nat} {w : Voice} (hw : e.voices[v]? = some w)
include hw

theorem frames_sounding (hs : Sounds w) : e.frames[v]? = some (some (frameAt e v w)) := by
  simp only [SoundEngine.frames, List.getElem?_map, List.getElem?_zipIdx, hw, Option.map_some, Nat.zero_add]
  rw [if_pos (by rwa [Bool.or_eq_true, decide_eq_true_iff, decide_eq_true_iff])]
  rfl

theorem frames_silent (hs : ¬ Sounds w) : e.frames[v]? = some none := by
  simp only [SoundEngine.frames, List.getElem?_map, List.getElem?_zipIdx, hw, Option.map_some]
  rw [if_neg (by rwa [Bool.or_eq_true, decide_eq_true_iff, decide_eq_true_iff])]

/-- A voice beside its frame. -/
theorem zip_frames {f : Option VoiceFrame} (hf : e.frames[v]? = some f) :
    (e.voices.zip e.frames)[v]? = some (w, f) := List.getElem?_zip_eq_some.mpr ⟨hw, hf⟩

end

theorem frames_length (e : SoundEngine) : e.frames.length = e.voices.length := by simp [SoundEngine.frames]

/-! ## The mix (R177) -/

/-- R177: what a voice adds to a channel's sum. -/
def contribution (duck : Bool) (channel : Nat) (w : Voice) : Int :=
  if w.state = .playing ∨ w.state = .fading then w.sample * (effGain duck w (w.gains.getD channel 0) : Int) else 0

theorem contribution_sounding {duck : Bool} {channel : Nat} {w : Voice} (h : Sounds w) :
    contribution duck channel w = w.sample * (effGain duck w (w.gains.getD channel 0) : Int) := if_pos h

theorem contribution_silent {duck : Bool} {channel : Nat} {w : Voice} (h : ¬ Sounds w) :
    contribution duck channel w = 0 := if_neg h

theorem mixSum_eq (e : SoundEngine) (channel : Nat) :
    e.mixSum channel = (e.voices.map (contribution e.ducks channel)).sum := by
  unfold SoundEngine.mixSum
  refine congrArg List.sum (List.ext_getElem? fun v => ?_)
  rw [List.getElem?_map, List.getElem?_map]
  cases hw : e.voices[v]? with
  | none =>
    have hzip : (e.voices.zip e.frames)[v]? = none := by
      simpa [frames_length] using List.getElem?_eq_none_iff.mp hw
    rw [hzip]
    rfl
  | some w =>
    by_cases hs : Sounds w
    · rw [zip_frames hw (frames_sounding hw hs)]
      simp only [Option.map_some]
      rw [contribution_sounding hs, frameAt, voiceFrame_sample]
    · rw [zip_frames hw (frames_silent hw hs)]
      simp only [Option.map_some]
      rw [contribution_silent hs]

theorem ducks_iff (e : SoundEngine) : e.ducks = true ↔ ∃ w ∈ e.voices, w.priority = 3 ∧ w.state = .playing := by
  simp [SoundEngine.ducks]

theorem effGain_eq (duck : Bool) (w : Voice) (g : Nat) :
    effGain duck w g = if w.state = .fading then
        ((if w.priority < 3 ∧ duck = true then (g + 1) / 2 else g) * w.fadeStep + 32) / 64
      else if w.priority < 3 ∧ duck = true then (g + 1) / 2 else g := by
  unfold effGain
  simp only [Bool.and_eq_true, decide_eq_true_iff]

theorem sat16_eq (x : Int) : sat16 x = if x < -32768 then -32768 else if 32767 < x then 32767 else x := rfl

/-- R177: the output is the rounded quotient within the 16-bit range, and the range's ends outside. -/
theorem mixOut_range (sum : Int) : -32768 ≤ mixOut sum ∧ mixOut sum ≤ 32767
    ∧ (-4194304 ≤ sum → sum ≤ 4194239 → 128 * mixOut sum ≤ sum + 64 ∧ sum + 64 < 128 * (mixOut sum + 1))
    ∧ (4194239 < sum → mixOut sum = 32767) ∧ (sum < -4194304 → mixOut sum = -32768) := by
  rw [mixOut, sat16_eq]
  omega

/-! ## The engine after a frame -/

/-- The voices that end in a frame. -/
def endedVoices (e : SoundEngine) : List Nat :=
  (e.frames.zipIdx.filter fun (f, _) => (f.bind VoiceFrame.ended).isSome).map Prod.snd

/-- The engine after a frame, before the voices that ended are freed. -/
def moved (e : SoundEngine) : SoundEngine :=
  { e with
    out := [mixOut (e.mixSum 0), mixOut (e.mixSum 1), mixOut (e.mixSum 2), mixOut (e.mixSum 3)]
    voices := (e.voices.zip e.frames).map fun (w, f) => match f with
      | none => w
      | some q => q.voice }

theorem advance_eq (e : SoundEngine) : e.advance = (endedVoices e).foldl SoundEngine.free (moved e) := by
  rw [endedVoices, List.foldl_map]
  rfl

theorem mem_endedVoices {e : SoundEngine} {v : Nat} :
    v ∈ endedVoices e ↔ ∃ f, e.frames[v]? = some (some f) ∧ f.ended.isSome = true := by
  simp only [endedVoices, List.mem_map, List.mem_filter, Prod.exists, exists_eq_right, List.mem_zipIdx_iff_getElem?]
  constructor
  · rintro ⟨f | f, hf, he⟩
    · exact nomatch he
    · exact ⟨f, hf, he⟩
  · rintro ⟨f, hf, he⟩
    exact ⟨some f, hf, he⟩

section
variable {e : SoundEngine} {v : Nat} {w : Voice} (hw : e.voices[v]? = some w)
include hw

theorem moved_sounding (hs : Sounds w) : (moved e).voices[v]? = some (frameAt e v w).voice := by
  simp only [moved, List.getElem?_map, zip_frames hw (frames_sounding hw hs), Option.map_some]

theorem moved_silent (hs : ¬ Sounds w) : (moved e).voices[v]? = some w := by
  simp only [moved, List.getElem?_map, zip_frames hw (frames_silent hw hs), Option.map_some]

/-- R170, R172: a voice that ends in a frame is IDLE after it. -/
theorem advance_ended (hs : Sounds w) (he : (frameAt e v w).ended.isSome = true) :
    e.advance.voices[v]? = some Voice.idle := by
  rw [advance_eq]
  refine frees_mem (mem_endedVoices.mpr ⟨_, frames_sounding hw hs, he⟩) (moved_sounding hw hs) ?_
  rw [frameAt, voiceFrame_state]
  rcases hs with hs | hs <;> simp [hs]

/-- R162, R169: a voice that plays on keeps what the frame left of it but for a start order that may fall. -/
theorem advance_plays_on (hs : Sounds w) (he : (frameAt e v w).ended = none) :
    ∃ k, k ≤ w.rank ∧ e.advance.voices[v]? = some { (frameAt e v w).voice with rank := k } := by
  have hnot : v ∉ endedVoices e := fun h => by
    obtain ⟨f, hf, hended⟩ := mem_endedVoices.mp h
    rw [frames_sounding hw hs, Option.some.injEq, Option.some.injEq] at hf
    rw [← hf, he] at hended
    exact nomatch hended
  rw [advance_eq, ← voiceFrame_rank _ (e.reading v) w]
  exact frees_lower hnot (moved_sounding hw hs)

theorem advance_silent (hs : ¬ Sounds w) : ∃ k, k ≤ w.rank ∧ e.advance.voices[v]? = some { w with rank := k } := by
  have hnot : v ∉ endedVoices e := fun h => by
    obtain ⟨f, hf, _⟩ := mem_endedVoices.mp h
    rw [frames_silent hw hs] at hf
    exact nomatch hf
  rw [advance_eq]
  exact frees_lower hnot (moved_silent hw hs)

end

/-! ## OUTPUT_FRAME -/

/-- The engine after a frame beside the one before it: the output alone is not a side effect. -/
theorem advance_aside (s : State) :
    Aside { s with sound := { s.sound with out := s.sound.advance.out } } { s with sound := s.sound.advance } := by
  obtain ⟨hclips, hlength, -⟩ := advance_engine s.sound
  have hread : s.sound.advance.read = s.sound.read ∨ s.sound.advance.read = none
      ∨ ∃ q, s.sound.advance.read = some q ∧ q.timeout = s.now + 2 := by
    rw [advance_eq]
    exact (frees_calm s.now id (endedVoices s.sound) (moved s.sound)).read
  refine ⟨?_, CondGrows.refl _, ⟨rfl, rfl, id, hlength⟩, Iff.rfl, Iff.rfl, fun h _ => h, Or.inl, fun _ => rfl⟩
  exact { SameOutside.refl s with clips := hclips, out := rfl, read := hread }

theorem outputFrame_aside (s : State) : Aside { s with sound := { s.sound with out := s.sound.advance.out } }
    (settle (outputFrame s)) :=
  ((advance_aside s).trans (outputFrame_calm s).toAside).trans (settle_aside _)

/-- Where no voice starves or ends in the frame, nothing is reported. -/
theorem outputFrame_silent {s : State} (h : ∀ f, some f ∈ s.sound.frames → f.starves = false ∧ f.ended = none) :
    outputFrame s = arbitrate { s with sound := s.sound.advance } := by
  unfold outputFrame
  generalize arbitrate { s with sound := s.sound.advance } = t
  refine List.foldlRecOn (motive := (· = t)) _ _ rfl fun u hu p hp => ?_
  subst hu
  obtain ⟨w, f⟩ := p
  cases f with
  | none => rfl
  | some f =>
    obtain ⟨hstarves, hended⟩ := h f (List.of_mem_zip hp).2
    simp [frameReport, hstarves, hended]

theorem exec_outputFrame_held {s : State} (h : s.resetHeld = true) : exec .outputFrame s = .next s :=
  congrArg _ (if_pos h)

theorem exec_outputFrame {s : State} (h : s.resetHeld = false) : exec .outputFrame s = .next (settle (outputFrame s)) :=
  congrArg _ (if_neg (by rw [h]; exact Bool.false_ne_true))

/-- R169: with no report to make, the frame and the arbiter's grant are all. -/
theorem exec_outputFrame_silent {s : State} (hr : s.resetHeld = false) (hs : Still s)
    (h : ∀ f, some f ∈ s.sound.frames → f.starves = false ∧ f.ended = none) :
    exec .outputFrame s = .next (arbitrate { s with sound := s.sound.advance }) := by
  have hstill : Still (arbitrate { s with sound := s.sound.advance }) :=
    SceneCues.still_arbitrate hs.notices ((still_judged hs).of_eq rfl rfl rfl)
  rw [exec_outputFrame hr, outputFrame_silent h, hstill.settle]

/-- Settles O57: a voice's frame by its jump, the mix voice by voice, and the frees of the voices that end, each of which lowers
start orders alone. -/
theorem frameMixed : Obligations.FrameMixed := by
  refine ⟨fun _ => exec_outputFrame_held, fun s hr => ⟨?_, exec_outputFrame_silent hr⟩, mixSum_eq, ducks_iff, effGain_eq,
    mixOut_range, fun bufs x => ⟨fun _ => sampleAt_some, sampleAt_none_iff bufs x⟩, fun w => ⟨?_, ?_⟩,
    fun clip reading w hs => ?_, fun e v w hw => ⟨fun hs => ?_, fun hp hf => ?_⟩⟩
  · have haside := outputFrame_aside s
    have hout : (settle (outputFrame s)).sound.out = s.sound.advance.out := haside.outside.out
    refine ⟨_, exec_outputFrame hr, hout.trans (advance_engine s.sound).2.2, ?_, rfl⟩
    rw [hout]
    exact haside
  · exact fun _ _ _ => sample_crossfade
  · exact sample_plain
  · refine ⟨voiceFrame_sample clip reading w, voiceFrame_eq clip reading w, voiceFrame_underrun clip reading w,
      voiceFrame_bufs clip reading, voiceFrame_completes clip reading w, voiceFrame_fades clip reading hs,
      voiceFrame_starves clip reading w, fun x b left h hl => ?_, fun x b left h hl => ?_, fun target n h => ?_, fun h => ?_⟩
    · rw [voiceFrame_crossfade clip reading h hl]
      exact ⟨rfl, rfl, rfl⟩
    · rw [voiceFrame_crossfade_last clip reading h hl]
      exact ⟨rfl, rfl, rfl, rfl⟩
    · rw [voiceFrame_pending clip reading h]
      exact ⟨rfl, rfl, rfl⟩
    · rw [voiceFrame_none clip reading h]
      exact ⟨rfl, h, rfl⟩
  · exact ⟨frames_sounding hw hs, advance_ended hw hs, advance_plays_on hw hs⟩
  · have hs : ¬ Sounds w := fun hs => hs.elim hp hf
    exact ⟨frames_silent hw hs, advance_silent hw hs⟩

end Sys2Proof.OnboardSound
end

section
/-! FETCH_COMPLETE (R165, R166, R168, R175), WAIT_EXPIRY (R165) and FETCH_TIMEOUT (R168, R173). -/
namespace Sys2Proof.OnboardSound
open Sys2Proof.Machine Sys2Proof.Safety Sys2Proof.Standing

/-! ## Reads granted (R167) -/

/-- A read in progress was granted at this local time. -/
def FreshRead (now : Nat) (e : SoundEngine) : Prop := ∀ q, e.read = some q → q.timeout = now + 2

theorem FreshRead.aside {s t : State} (hs : FreshRead s.now s.sound) (h : Aside s t) : FreshRead s.now t.sound := by
  intro q hq
  rcases h.outside.read with he | he | ⟨p, he, hp⟩
  · exact hs q (he ▸ hq)
  · rw [he] at hq
    exact nomatch hq
  · rw [he, Option.some.injEq] at hq
    exact hq ▸ hp

/-! ## A block arrives (R165, R166, R175) -/

theorem blockOf_length (r : Read) (samples : List Half) : (blockOf r samples).samples.length = r.size := by
  simp [blockOf]

theorem blockArrives_pending {now target n : Nat} {b : Block} {w : Voice} (h : w.jump = .pending target n) :
    blockArrives now b w = { w with
      jump := .crossfade (target + n) b 64, fetch := max (b.start + b.samples.length) (target + n) } := by
  rw [blockArrives, h]
  rfl

section
variable {now : Nat} {b : Block} {w : Voice} (h : w.jump = .none)
include h

theorem blockArrives_fetch : (blockArrives now b w).fetch = max (b.start + b.samples.length) w.cursor := by
  rw [blockArrives, h]
  dsimp only
  split
  · split <;> rfl
  · rfl

theorem blockArrives_bufs :
    (blockArrives now b w).bufs = (w.bufs ++ [b]).filter fun b => w.cursor < b.start + b.samples.length := by
  rw [blockArrives, h]
  dsimp only
  split
  · split <;> rfl
  · rfl

theorem blockArrives_waits (hs : w.state = .fetching) {t : Nat} (ht : w.waitExpiry = some t) (hlate : now < t) :
    (blockArrives now b w).state = .waiting := by
  rw [blockArrives, h]
  dsimp only
  rw [if_pos hs, if_pos (by simpa [ht] using hlate)]

theorem blockArrives_plays (hs : w.state = .fetching) (ht : ∀ t, w.waitExpiry = some t → t ≤ now) :
    (blockArrives now b w).state = .playing ∧ (blockArrives now b w).waitExpiry = none := by
  have hnot : ¬ (w.waitExpiry.any fun t => decide (now < t)) = true := by
    rw [Option.any_eq_true]
    rintro ⟨t, he, hlate⟩
    exact Nat.not_lt.mpr (ht t he) (of_decide_eq_true hlate)
  rw [blockArrives, h]
  dsimp only
  rw [if_pos hs, if_neg hnot]
  exact ⟨rfl, rfl⟩

end

/-! ## FETCH_COMPLETE (R168) -/

theorem takeRead_aside (r : Read) (samples : List Half) (s : State) : Aside s (takeRead r samples s) := by
  refine ⟨{ SameOutside.refl s with read := .inr (.inl rfl) }, CondGrows.refl _, ⟨rfl, rfl, id, ?_⟩, Iff.rfl, Iff.rfl,
    fun h _ => h, Or.inl, fun _ => rfl⟩
  exact List.length_modify _ _ _

theorem takeRead_voices {r : Read} {samples : List Half} {s : State} {w : Voice} (hw : s.sound.voices[r.voice]? = some w) :
    (takeRead r samples s).sound.voices = s.sound.voices.set r.voice (blockArrives s.now (blockOf r samples) w) := by
  rw [takeRead, updateAt, List.modify_eq_set_getElem?, hw]
  rfl

theorem isOf_iff (voice granted : Nat) (r : Read) :
    r.isOf voice granted = true ↔ r.voice = voice ∧ r.timeout = granted + 2 := by
  rw [Read.isOf, Bool.and_eq_true, decide_eq_true_iff, decide_eq_true_iff]
  rfl

theorem exec_fetchComplete {s : State} {r : Read} {voice granted : Nat} (hr : s.sound.read = some r) (hv : r.voice = voice)
    (hg : r.timeout = granted + 2) (samples : List Half) :
    exec (.fetchComplete ⟨voice, granted, samples⟩) s = .next (settle (takeRead r samples s)) := by
  show Host.Outcome.next _ = _
  rw [hr]
  exact congrArg _ (if_pos ((isOf_iff _ _ _).mpr ⟨hv, hg⟩))

theorem exec_fetchComplete_no_read {s : State} {voice granted : Nat}
    (h : ∀ r, s.sound.read = some r → r.voice ≠ voice ∨ r.timeout ≠ granted + 2) (samples : List Half) :
    exec (.fetchComplete ⟨voice, granted, samples⟩) s = .next s := by
  show Host.Outcome.next _ = _
  cases hr : s.sound.read with
  | none => rfl
  | some r =>
    refine congrArg _ (if_neg fun he => ?_)
    obtain ⟨hv, hg⟩ := (isOf_iff _ _ _).mp he
    exact (h r hr).elim (absurd hv) (absurd hg)

/-- With no entry waiting and no standing judgement to make, a change of the engine is settled by the arbiter alone. -/
theorem settle_engine {s : State} (hn : s.motion.notices = []) (hj : judgeStanding s = s) (e : SoundEngine) :
    settle { s with sound := e } = arbitrate { s with sound := e } :=
  settle_quiet hn ((judgeStanding_eq_iff _).mpr (((judgeStanding_eq_iff s).mp hj).of_eq rfl rfl rfl))

theorem arbitrate_voices (s : State) : (arbitrate s).sound.voices = s.sound.voices := by
  obtain ⟨_, h⟩ := arbitrate_eq s
  rw [h]

/-! ## WAIT_EXPIRY (R165) -/

theorem exec_waitExpiry {s : State} {voice t : Nat} {w : Voice} (hw : s.sound.voices[voice]? = some w)
    (hs : w.state = .waiting) (ht : w.waitExpiry = some t) (hnow : t ≤ s.now) :
    exec (.waitExpiry voice) s = .next (settle (playWaiting voice w s)) := by
  show Host.Outcome.next _ = _
  rw [hw]
  dsimp only
  rw [hs, ht]
  exact congrArg _ (if_pos hnow)

/-- Settles O59: the block's arrival by the voice's jump and state, and settling, which leaves the voices alone where nothing
else is outstanding. -/
theorem readsComplete : Obligations.ReadsComplete := by
  refine ⟨?_, fun s voice granted samples h => exec_fetchComplete_no_read h samples, ?_⟩
  · rintro s voice granted samples r w hr rfl hg hw
    have hend : (blockOf r samples).start + (blockOf r samples).samples.length = r.start + r.size := by
      rw [blockOf_length]
      rfl
    have hfresh : FreshRead (takeRead r samples s).now (takeRead r samples s).sound :=
      fun _ hq => absurd hq.symm (Option.some_ne_none _)
    have hsettle := settle_aside (takeRead r samples s)
    refine ⟨_, _, exec_fetchComplete hr rfl hg samples, hfresh.aside hsettle, (takeRead_aside r samples s).trans hsettle, rfl,
      fun hs hj ht => blockArrives_plays hj hs ht, fun t hs hj ht hlate => blockArrives_waits hj hs ht hlate,
      fun hj => ⟨?_, blockArrives_bufs hj⟩, fun target n hj => ?_, fun hn hj => ?_⟩
    · rw [blockArrives_fetch hj, hend]
    · rw [blockArrives_pending hj, hend]
    · show (settle { s with sound := _ }).sound.voices = _
      rw [settle_engine hn hj, arbitrate_voices]
      exact takeRead_voices hw
  · intro s voice t w hw hs ht hnow hstill
    obtain ⟨read, hread⟩ := arbitrate_eq (playWaiting voice w s)
    refine ⟨_, exec_waitExpiry hw hs ht hnow, ?_⟩
    have h : settle (playWaiting voice w s) = _ := (settle_engine hstill.notices hstill.judged _).trans hread
    rw [h]
    rfl

end Sys2Proof.OnboardSound
end

section
/-! FETCH_TIMEOUT (R168, R173): what the timeout leaves of the read and of its voice, and the whole next state where SOUND_FAULT
raises no level, fills no record and asks for no announcement. -/
namespace Sys2Proof.OnboardSound
open Sys2Proof.Machine Sys2Proof.Safety Sys2Proof.Standing

/-! ## The read is dropped (R168) -/

theorem stillActive_iff {v : Nat} {tag : VoiceTag} {e : SoundEngine} {w : Voice} (hw : e.voices[v]? = some w) :
    stillActive v tag e = true ↔ w.state ≠ .idle ∧ w.tag = tag := by
  simp [stillActive, hw]

theorem dropRead_read (e : SoundEngine) (r : Read) (active : Bool) : (e.dropRead r active).read ≠ some r := by
  unfold SoundEngine.dropRead
  dsimp only
  generalize (if active = true then e.free r.voice else e) = f
  split
  · exact nofun
  · assumption

theorem dropRead_voices (e : SoundEngine) (r : Read) (active : Bool) :
    (e.dropRead r active).voices = if active then (e.free r.voice).voices else e.voices := by
  unfold SoundEngine.dropRead
  dsimp only
  rw [← apply_ite SoundEngine.voices]
  generalize (if active = true then e.free r.voice else e) = f
  split <;> rfl

theorem dropRead_frame (e : SoundEngine) (r : Read) (active : Bool) :
    e.dropRead r active = { e with voices := (e.dropRead r active).voices, read := (e.dropRead r active).read } := by
  have h := dropRead_engine 0 e r active
  rw [← h.clips, ← h.out]

/-- The tag of the voice of a read. -/
def tagOf (r : Read) (e : SoundEngine) : VoiceTag := ((e.voices[r.voice]?).map Voice.tag).getD (.cue 0)

/-- The voice of the read is still the one that the read was for, once SOUND_FAULT is latched. -/
def failedActive (r : Read) (s : State) : Bool := stillActive r.voice (tagOf r s.sound) (latch 18 s).sound

/-- The state in which a read that timed out is dropped. -/
def readDropped (r : Read) (s : State) : State :=
  { latch 18 s with sound := (latch 18 s).sound.dropRead r (failedActive r s) }

theorem readFails_eq (r : Read) (s : State) : readFails r s =
    if failedActive r s then endReport (tagOf r s.sound) false (arbitrate (readDropped r s))
    else arbitrate (readDropped r s) := rfl

theorem readDropped_calm (r : Read) (s : State) : Calm s (readDropped r s) :=
  (latch_calm 18 s).trans (Calm.sound _ _ (dropRead_engine _ _ r _))

theorem readFails_after_dropped (r : Read) (s : State) : Calm (readDropped r s) (readFails r s) := by
  rw [readFails_eq]
  split
  · exact (arbitrate_calm _).trans (endReport_calm _ _ _)
  · exact arbitrate_calm _

/-- R168: the read is no longer in progress. -/
theorem readDropped_fresh {r : Read} {s : State} (hr : s.sound.read = some r) : FreshRead s.now (readDropped r s).sound := by
  have hnot : (readDropped r s).sound.read ≠ some r := dropRead_read _ r _
  intro q hq
  rcases (readDropped_calm r s).outside.read with he | he | ⟨p, he, hp⟩
  · exact absurd (he.trans hr) hnot
  · rw [he] at hq
    exact nomatch hq
  · rw [he, Option.some.injEq] at hq
    exact hq ▸ hp

/-- R163, R168: the voice of the read is freed, or what SOUND_FAULT led to has freed it already. -/
theorem readDropped_quiet {r : Read} {s : State} {w : Voice} (hw : s.sound.voices[r.voice]? = some w) :
    ∃ x, (readDropped r s).sound.voices[r.voice]? = some x ∧ Quiet x := by
  obtain ⟨x, hx, hcalm⟩ := (latch_calm 18 s).voices _ _ hw
  have htag : tagOf r s.sound = w.tag := by rw [tagOf, hw]; rfl
  have hactive := stillActive_iff (tag := tagOf r s.sound) hx
  show ∃ x, (SoundEngine.dropRead _ r _).voices[r.voice]? = some x ∧ _
  rw [dropRead_voices]
  by_cases ha : failedActive r s = true
  · rw [if_pos ha]
    exact ⟨_, free_self hx (hactive.mp ha).1, .inl rfl⟩
  · rw [if_neg ha]
    refine ⟨x, hx, ?_⟩
    by_cases hidle : x.state = .idle
    · exact .inl hidle
    · exact hcalm.tag.resolve_left fun h => ha (hactive.mpr ⟨hidle, h.trans htag.symm⟩)

/-- Settling does to the voices what the shared operations do. -/
theorem settle_voices (s : State) : VoicesCalm s.sound.voices (settle s).sound.voices := by
  have hjudge : ∀ u : State, (judgeStanding u).sound = u.sound := fun u => by
    unfold judgeStanding
    split <;> (repeat' split) <;> rfl
  suffices h : ∀ n u, VoicesCalm u.sound.voices (settleLoop n u).sound.voices by
    rw [settle, arbitrate_voices]
    exact h 64 s
  intro n
  induction n with
  | zero => exact fun u => VoicesCalm.refl _
  | succ n ih =>
    intro u
    rw [settleLoop, ← hjudge u]
    split
    · exact VoicesCalm.refl _
    · exact (atOnce_calm _).voices.trans (ih _)

/-! ## FETCH_TIMEOUT -/

theorem exec_fetchTimeout {s : State} {r : Read} (hr : s.sound.read = some r) (hdue : r.timeout ≤ s.now) :
    exec .fetchTimeout s = .next (settle (readFails r s)) := by
  show Host.Outcome.next _ = _
  rw [hr]
  exact congrArg _ (if_pos hdue)

theorem exec_fetchTimeout_early {s : State} {r : Read} (hr : s.sound.read = some r) (hdue : s.now < r.timeout) :
    exec .fetchTimeout s = .next s := by
  show Host.Outcome.next _ = _
  rw [hr]
  exact congrArg _ (if_neg (Nat.not_le.mpr hdue))

theorem exec_fetchTimeout_no_read {s : State} (hr : s.sound.read = none) : exec .fetchTimeout s = .next s := by
  show Host.Outcome.next _ = _
  rw [hr]

/-! ## A condition that is latched and no more -/

section
variable {id : Nat} {s : State} {c : Condition} (hc : s.cond.record id = some c) (hd : c.announceFirst = false)
  (hfirst : c.level < 4) (hlow : c.level ≤ s.level)

/-- The state with a condition's flag set. -/
def withFlag (id : Nat) (c : Condition) (s : State) : State :=
  { s with cond := { s.cond with records := s.cond.records.set (id - 1) { c with latched := true } } }

include hc in
theorem onRecord_latched : onRecord id (fun q => { q with latched := true }) s = withFlag id c s := by
  obtain ⟨hid, hget⟩ := Conditions.record_some_iff.mp hc
  rw [onRecord, if_neg (Nat.ne_of_gt hid), updateAt, List.modify_eq_set_getElem?, hget]
  rfl

include hc hfirst in
/-- R133: below level 4 no first-fault record is filled. -/
theorem flagged_below : Conditions.flagged id s = withFlag id c s := by
  have hrecord : (withFlag id c s).cond.record id = some { c with latched := true } := by
    rw [← onRecord_latched hc, Conditions.record_onRecord, if_pos rfl, hc]
    rfl
  rw [Conditions.flagged, onRecord_latched hc, fillFirstFault, hrecord]
  exact if_neg (by simp [hfirst])

include hc hd hlow in
theorem level_withFlag : (withFlag id c s).level = s.level := by
  refine Nat.le_antisymm (levelOf_le fun q hq => ?_) ?_
  · rcases List.mem_or_eq_of_mem_set hq with hq | rfl
    · exact weight_le_levelOf hq
    · exact (Conditions.weight_of_active (c := { c with latched := true }) rfl (.inl hd)).trans_le hlow
  · rw [← onRecord_latched hc]
    exact (onRecord_calm id _ latchFlag_grows s).toAside.level

include hc hd hfirst hlow in
/-- R123, R125, R128, R133: a DIRECT condition below level 4 and not above the level sets its flag and does no more. -/
theorem latch_flag_only (hl : LevelOk s) : latch id s = withFlag id c s := by
  rw [Conditions.latch_silent hc (.inl hd), flagged_below hc hfirst, handLevel, handLevelBy,
    level_withFlag hc hd hlow]
  exact if_pos hl.handed.symm

end

/-! ## A read fails while SOUND_FAULT does no more than set its flag (R168, R173) -/

/-- The flag of SOUND_FAULT is set, and the read is dropped with its voice. -/
def flagDropped (r : Read) (c : Condition) (s : State) : State :=
  { withFlag 18 c s with sound := s.sound.dropRead r true }

section
variable {s : State} {r : Read} {w : Voice} {c : Condition} {id : Nat} (hw : s.sound.voices[r.voice]? = some w)
  (hs : w.state ≠ .idle) (ht : w.tag = .cue id) (hlatch : latch 18 s = withFlag 18 c s)
include hw hs hlatch

theorem failedActive_flag : failedActive r s = true := by
  have htag : w.tag = tagOf r s.sound := by rw [tagOf, hw]; rfl
  rw [failedActive, hlatch]
  exact (stillActive_iff hw).mpr ⟨hs, htag⟩

theorem readDropped_flag : readDropped r s = flagDropped r c s := by
  rw [readDropped, failedActive_flag hw hs hlatch, hlatch]
  rfl

include ht

/-- R173: a cue's voice ends without completion, and nothing occurs. -/
theorem readFails_flag : readFails r s = arbitrate (flagDropped r c s) := by
  have htag : tagOf r s.sound = .cue id := by rw [tagOf, hw]; exact ht
  rw [readFails_eq, if_pos (failedActive_flag hw hs hlatch), htag, readDropped_flag hw hs hlatch]
  rfl

theorem settle_readFails_flag (hlevel : (withFlag 18 c s).level = s.level) (hstill : Still s) :
    settle (readFails r s) = arbitrate (flagDropped r c s) := by
  have hready : (flagDropped r c s).readyMet = s.readyMet := by
    have hl : (flagDropped r c s).level = s.level := hlevel
    unfold State.readyMet
    rw [hl]
    rfl
  have hjudged := (still_judged hstill).of_eq (t := flagDropped r c s) rfl rfl hready
  rw [readFails_flag hw hs ht hlatch, (SceneCues.still_arbitrate (s := flagDropped r c s) hstill.notices hjudged).settle]

end

/-- R168: the state after a timeout that sets the flag and frees the voice. -/
theorem exec_fetchTimeout_flag {s : State} {r : Read} {w : Voice} {c : Condition} {id : Nat}
    (hr : s.sound.read = some r) (hdue : r.timeout ≤ s.now) (hw : s.sound.voices[r.voice]? = some w)
    (hs : w.state ≠ .idle) (ht : w.tag = .cue id) (hc : s.cond.record 18 = some c) (hd : c.announceFirst = false)
    (hfirst : c.level < 4) (hlow : c.level ≤ s.level) (hl : LevelOk s) (hstill : Still s) :
    ∃ read, exec .fetchTimeout s = .next { withFlag 18 c s with
      sound := { s.sound with voices := (s.sound.free r.voice).voices, read := read } } := by
  have hlatch := latch_flag_only hc hd hfirst hlow hl
  obtain ⟨read, hread⟩ := arbitrate_eq (flagDropped r c s)
  have hvoices : (s.sound.dropRead r true).voices = (s.sound.free r.voice).voices := dropRead_voices s.sound r true
  refine ⟨read, ?_⟩
  rw [exec_fetchTimeout hr hdue, settle_readFails_flag hw hs ht hlatch (level_withFlag hc hd hlow) hstill, hread,
    flagDropped, dropRead_frame, hvoices]

/-- Settles O60: after the drop the read is another's and its voice quiet, which side effects keep; and the next state whole
where SOUND_FAULT sets its flag alone. -/
theorem readTimesOut : Obligations.ReadTimesOut := by
  refine fun s => ⟨fun r hr hdue htab => ?_, fun r w id c hr hdue hw hs ht hc hd hfirst hlow hl hstill => ?_,
    fun _ => exec_fetchTimeout_early, exec_fetchTimeout_no_read⟩
  · have hafter := (readFails_after_dropped r s).toAside.trans (settle_aside _)
    have hfresh : FreshRead s.now (settle (readFails r s)).sound := by
      have hnow := (readDropped_calm r s).outside.now
      rw [← hnow]
      exact FreshRead.aside (hnow.symm ▸ readDropped_fresh hr) hafter
    refine ⟨_, exec_fetchTimeout hr hdue, ?_, (readDropped_calm r s).toAside.trans hafter, fun he => ?_, hfresh,
      fun w hw => ?_⟩
    · have hlatched : Latched (latch 18 s) 18 := latch_latched 18 s (by decide) (by rw [htab.records]; decide)
      exact (hlatched.aside (Calm.sound _ _ (dropRead_engine _ _ r _)).toAside).aside hafter
    · have hlate := hfresh r he
      omega
    · obtain ⟨x, hx, hquiet⟩ := readDropped_quiet hw
      obtain ⟨v, hv, hcalm⟩ := ((readFails_after_dropped r s).voices.trans (settle_voices _)) _ _ hx
      exact ⟨v, hv, hcalm.quiet hquiet⟩
  · obtain ⟨read, h⟩ := exec_fetchTimeout_flag hr hdue hw hs ht hc hd hfirst hlow hl hstill
    exact ⟨_, h, free_self hw hs, fun v x hv hx => free_other hw hs hv hx, rfl⟩

end Sys2Proof.OnboardSound
end

section
/-! Start requests (R163, R164): the voice that a request gets, and its placing. -/
namespace Sys2Proof.OnboardSound
open Sys2Proof.Machine Sys2Proof.Safety

/-! ## The victim (R163, step 3) -/

theorem stolenBefore_iff (a b : Voice) :
    stolenBefore a b = true ↔ a.priority < b.priority ∨ (a.priority = b.priority ∧ a.rank < b.rank) := by
  simp [stolenBefore]

theorem not_stolenBefore_iff (a b : Voice) :
    ¬ stolenBefore a b = true ↔ b.priority < a.priority ∨ (b.priority = a.priority ∧ b.rank ≤ a.rank) := by
  rw [stolenBefore_iff]
  omega

theorem not_stolenBefore_trans {a b c : Voice} (h : ¬ stolenBefore b a = true) (g : ¬ stolenBefore c b = true) :
    ¬ stolenBefore c a = true := by
  rw [not_stolenBefore_iff] at *
  omega

/-- The best of a first candidate and the others is one of them, and none of them is chosen before it. -/
theorem foldl_betterVictim (cs : List (Nat × Voice)) (b : Nat × Voice) :
    ∃ r, cs.foldl betterVictim (some b) = some r ∧ r ∈ b :: cs ∧ ∀ c ∈ b :: cs, ¬ stolenBefore c.2 r.2 = true := by
  induction cs generalizing b with
  | nil => exact ⟨b, rfl, List.mem_singleton_self b, fun c hc => by
      rw [List.mem_singleton.mp hc, not_stolenBefore_iff]
      omega⟩
  | cons d cs ih =>
    rw [List.foldl_cons, betterVictim]
    split
    · rename_i hbefore
      obtain ⟨r, hr, hmem, hbest⟩ := ih d
      refine ⟨r, hr, List.mem_cons_of_mem _ hmem, fun c hc => ?_⟩
      rcases List.mem_cons.mp hc with rfl | hc
      · refine not_stolenBefore_trans (hbest d List.mem_cons_self) ?_
        rw [stolenBefore_iff] at hbefore
        rw [not_stolenBefore_iff]
        omega
      · exact hbest c hc
    · rename_i hnot
      obtain ⟨r, hr, hmem, hbest⟩ := ih b
      have hd : ¬ stolenBefore d.2 r.2 = true := not_stolenBefore_trans (hbest b List.mem_cons_self) hnot
      refine ⟨r, hr, ?_, fun c hc => ?_⟩
      · rcases List.mem_cons.mp hmem with rfl | hmem
        · exact List.mem_cons_self
        · exact List.mem_cons_of_mem _ (List.mem_cons_of_mem _ hmem)
      · rcases List.mem_cons.mp hc with rfl | hc
        · exact hbest _ List.mem_cons_self
        · rcases List.mem_cons.mp hc with rfl | hc
          · exact hd
          · exact hbest _ (List.mem_cons_of_mem _ hc)

/-- The voices of strictly lower priority, with their numbers. -/
def victims (e : SoundEngine) (priority : Nat) : List (Nat × Voice) :=
  e.voices.zipIdx.filterMap fun (q, i) => if q.priority < priority then some (i, q) else none

theorem mem_victims {e : SoundEngine} {priority v : Nat} {w : Voice} :
    (v, w) ∈ victims e priority ↔ e.voices[v]? = some w ∧ w.priority < priority := by
  simp only [victims, List.mem_filterMap, Prod.exists, List.mem_zipIdx_iff_getElem?, Option.ite_none_right_eq_some,
    Option.some.injEq, Prod.mk.injEq]
  constructor
  · rintro ⟨q, i, hget, hlow, rfl, rfl⟩
    exact ⟨hget, hlow⟩
  · rintro ⟨hget, hlow⟩
    exact ⟨w, v, hget, hlow, rfl, rfl⟩

/-- R163: with every voice active the victim is the first of lowest priority, and there is none without a lower one. -/
theorem victims_best (e : SoundEngine) (priority : Nat) :
    (victims e priority = [] ∧ (victims e priority).foldl betterVictim none = none)
    ∨ ∃ v w, (victims e priority).foldl betterVictim none = some (v, w) ∧ (v, w) ∈ victims e priority
      ∧ ∀ c ∈ victims e priority, ¬ stolenBefore c.2 w = true := by
  cases hv : victims e priority with
  | nil => exact .inl ⟨rfl, rfl⟩
  | cons b cs =>
    obtain ⟨⟨v, w⟩, hr, hmem, hbest⟩ := foldl_betterVictim cs b
    exact .inr ⟨v, w, hr, hmem, hbest⟩

/-! ## The voice chosen (R163, steps 2 to 4) -/

section
variable {e : SoundEngine} {priority : Nat}

theorem target_idle {v : Nat} (h : e.voices.findIdx? (fun q => decide (q.state = .idle)) = some v) :
    e.target priority = some v := by
  rw [SoundEngine.target, h]

theorem target_active (h : e.voices.findIdx? (fun q => decide (q.state = .idle)) = none) :
    e.target priority = ((victims e priority).foldl betterVictim none).map Prod.fst := by
  rw [SoundEngine.target, h]
  rfl

/-- What R163 says of the voice chosen: the lowest-numbered IDLE one, or with all active the best victim. -/
def Chosen (e : SoundEngine) (priority v : Nat) (w : Voice) : Prop :=
  (w.state = .idle ∧ ∀ i x, i < v → e.voices[i]? = some x → x.state ≠ .idle)
  ∨ (w.state ≠ .idle ∧ w.priority < priority ∧ (∀ x ∈ e.voices, x.state ≠ .idle)
    ∧ ∀ x ∈ e.voices, x.priority < priority →
      w.priority < x.priority ∨ (w.priority = x.priority ∧ w.rank ≤ x.rank))

theorem findIdx?_idle_none : e.voices.findIdx? (fun q => decide (q.state = .idle)) = none
    ↔ ∀ x ∈ e.voices, x.state ≠ .idle := by
  simp [List.findIdx?_eq_none_iff]

theorem target_chosen {v : Nat} (h : e.target priority = some v) :
    ∃ w, e.voices[v]? = some w ∧ Chosen e priority v w := by
  cases hidle : e.voices.findIdx? (fun q => decide (q.state = .idle)) with
  | some u =>
    rw [target_idle hidle, Option.some.injEq] at h
    subst h
    obtain ⟨hlt, hstate, hbefore⟩ := List.findIdx?_eq_some_iff_getElem.mp hidle
    refine ⟨e.voices[u], List.getElem?_eq_getElem hlt, .inl ⟨of_decide_eq_true hstate, fun i x hi hx => ?_⟩⟩
    obtain ⟨hxlt, rfl⟩ := List.getElem?_eq_some_iff.mp hx
    simpa using hbefore i hi
  | none =>
    have hactive := findIdx?_idle_none.mp hidle
    rw [target_active hidle] at h
    rcases victims_best e priority with ⟨-, hnone⟩ | ⟨u, w, hbest, hmem, hfirst⟩
    · rw [hnone] at h
      exact nomatch h
    · rw [hbest] at h
      obtain rfl : u = v := Option.some.inj h
      obtain ⟨hget, hlow⟩ := mem_victims.mp hmem
      refine ⟨w, hget, .inr ⟨hactive w (List.mem_of_getElem? hget), hlow, hactive, fun x hx hxlow => ?_⟩⟩
      obtain ⟨i, hi⟩ := List.getElem?_of_mem hx
      exact (not_stolenBefore_iff x w).mp (hfirst (i, x) (mem_victims.mpr ⟨hi, hxlow⟩))

theorem target_none_iff : e.target priority = none ↔ ∀ x ∈ e.voices, x.state ≠ .idle ∧ priority ≤ x.priority := by
  constructor
  · intro h x hx
    cases hidle : e.voices.findIdx? (fun q => decide (q.state = .idle)) with
    | some u =>
      rw [target_idle hidle] at h
      exact nomatch h
    | none =>
      refine ⟨findIdx?_idle_none.mp hidle x hx, Nat.not_lt.mp fun hlow => ?_⟩
      rw [target_active hidle] at h
      rcases victims_best e priority with ⟨hempty, -⟩ | ⟨u, w, hbest, -, -⟩
      · obtain ⟨i, hi⟩ := List.getElem?_of_mem hx
        have hmem : (i, x) ∈ victims e priority := mem_victims.mpr ⟨hi, hlow⟩
        rw [hempty] at hmem
        exact nomatch hmem
      · rw [hbest] at h
        exact nomatch h
  · intro h
    cases htarget : e.target priority with
    | none => rfl
    | some v =>
      obtain ⟨w, hw, hchosen⟩ := target_chosen htarget
      obtain ⟨hactive, hhigh⟩ := h w (List.mem_of_getElem? hw)
      rcases hchosen with ⟨hidle, -⟩ | ⟨-, hlow, -⟩
      · exact absurd hidle hactive
      · exact absurd hlow (Nat.not_lt.mpr hhigh)

end

/-! ## The request is placed (R163, R164) -/

/-- R164: the voice as the request places it in the voice chosen. -/
def placement (s : State) (req : StartRequest) (c : Clip) (v : Nat) : Option Voice :=
  placeVoice s.now (match req.lock with | none => none | some l => s.estimate l.scene) c req
    ((s.sound.free v).activeCount + 1)

/-- The engine once the voice chosen is free and the port judged (R163, R167). -/
def cleared (s : State) (v : Nat) : SoundEngine := (arbitrate { s with sound := s.sound.free v }).sound

theorem cleared_voices (s : State) (v : Nat) : (cleared s v).voices = (s.sound.free v).voices := arbitrate_voices _

theorem cleared_activeCount (s : State) (v : Nat) : (cleared s v).activeCount = (s.sound.free v).activeCount := by
  rw [SoundEngine.activeCount, cleared_voices]
  rfl

section
variable {s : State} {req : StartRequest}

theorem startVoice_absent (h : s.sound.clip req.clip = none) :
    startVoice s req = { engine := s.sound, started := false, stolen := none, ended := false } := by
  rw [startVoice, h]

theorem startVoice_untargeted (h : s.sound.target req.priority = none) :
    startVoice s req = { engine := s.sound, started := false, stolen := none, ended := false } := by
  cases hclip : s.sound.clip req.clip with
  | none => exact startVoice_absent hclip
  | some c => rw [startVoice, hclip, h]

section
variable {v : Nat} {c : Clip} {w : Voice} (hclip : s.sound.clip req.clip = some c)
  (ht : s.sound.target req.priority = some v) (hw : s.sound.voices[v]? = some w)
include hclip ht hw

theorem startVoice_taken : startVoice s req = match placement s req c v with
    | none => { engine := cleared s v, started := true, stolen := if w.state = .idle then none else some w.tag, ended := true }
    | some q => {
        engine := { cleared s v with voices := (cleared s v).voices.set v q }
        started := true, stolen := if w.state = .idle then none else some w.tag, ended := false } := by
  rw [startVoice, hclip]
  dsimp only
  rw [ht]
  dsimp only
  rw [hw]
  dsimp only
  rw [placement, ← cleared_activeCount]
  rfl

theorem startVoice_placed {q : Voice} (h : placement s req c v = some q) : startVoice s req = {
    engine := { cleared s v with voices := (cleared s v).voices.set v q }
    started := true, stolen := if w.state = .idle then none else some w.tag, ended := false } := by
  rw [startVoice_taken hclip ht hw, h]

/-- R164: the lock places the voice at or beyond its clip's end. -/
theorem startVoice_ended (h : placement s req c v = none) : startVoice s req = {
    engine := cleared s v, started := true, stolen := if w.state = .idle then none else some w.tag, ended := true } := by
  rw [startVoice_taken hclip ht hw, h]

end

theorem startVoice_started_iff (hclip : s.sound.clip req.clip ≠ none) :
    (startVoice s req).started = true ↔ s.sound.target req.priority ≠ none := by
  obtain ⟨c, hclip⟩ := Option.ne_none_iff_exists'.mp hclip
  cases ht : s.sound.target req.priority with
  | none => simp [startVoice_untargeted ht]
  | some v =>
    obtain ⟨w, hw, -⟩ := target_chosen ht
    cases hp : placement s req c v with
    | none => simp [startVoice_ended hclip ht hw hp]
    | some q => simp [startVoice_placed hclip ht hw hp]

section
variable {v : Nat} {w : Voice} (hw : s.sound.voices[v]? = some w)
include hw

theorem cleared_self : ∃ q, (cleared s v).voices[v]? = some q ∧ q.state = .idle := by
  rw [cleared_voices]
  by_cases hs : w.state = .idle
  · exact ⟨w, by rw [free_idle hw hs, hw], hs⟩
  · exact ⟨_, free_self hw hs, rfl⟩

theorem cleared_other {i : Nat} {x : Voice} (hi : i ≠ v) (hx : s.sound.voices[i]? = some x) :
    (cleared s v).voices[i]?
      = some { x with rank := if w.state ≠ .idle ∧ w.rank < x.rank then x.rank - 1 else x.rank } := by
  rw [cleared_voices]
  by_cases hs : w.state = .idle
  · simp [free_idle hw hs, hx, hs]
  · simp [free_other hw hs hi hx, hs]

end

end

/-! ## Placing (R164) -/

section
variable (now : Nat) (clip : Clip) (req : StartRequest) (rank : Nat)

/-- R164: the voice as an unlocked request places it. -/
def startOf : Voice :=
  { Voice.idle with
    state := .fetching, clip := req.clip, gains := req.gains, priority := req.priority, lock := req.lock
    tag := req.tag, rank := rank }

theorem placeVoice_unlocked {e : Option Nat} (h : req.lock = none ∨ e = none) :
    placeVoice now e clip req rank = some (startOf req rank) := by
  unfold placeVoice
  dsimp only
  split
  · rename_i hl
    rcases h with h | h
    · rw [h] at hl
      exact nomatch hl
    · exact nomatch h
  · rfl

section
variable {l : SceneLock} {e : Nat} (hl : req.lock = some l)
include hl

theorem placeVoice_ahead (h : sceneReached e l.anchor = false) : placeVoice now (some e) clip req rank
    = some { startOf req rank with waitExpiry := some (now + sceneWait e l.anchor), lastCheck := some now } := by
  unfold placeVoice
  rw [hl]
  dsimp only
  rw [if_neg (Bool.eq_false_iff.mp h), startOf, hl]

variable (h : sceneReached e l.anchor = true)
include h

theorem placeVoice_loops (hloop : clip.loops = true) : placeVoice now (some e) clip req rank
    = some { startOf req rank with
        cursor := sceneSince e l.anchor * 24 % clip.length, fetch := sceneSince e l.anchor * 24 % clip.length
        lastCheck := some now } := by
  unfold placeVoice
  rw [hl]
  dsimp only
  rw [if_pos h, if_pos hloop, startOf, hl]

theorem placeVoice_beyond (hloop : clip.loops = false) (hx : clip.length ≤ sceneSince e l.anchor * 24) :
    placeVoice now (some e) clip req rank = none := by
  unfold placeVoice
  rw [hl]
  dsimp only
  rw [if_pos h, if_neg (Bool.eq_false_iff.mp hloop), if_pos hx]

theorem placeVoice_within (hloop : clip.loops = false) (hx : sceneSince e l.anchor * 24 < clip.length) :
    placeVoice now (some e) clip req rank = some { startOf req rank with
      cursor := sceneSince e l.anchor * 24, fetch := sceneSince e l.anchor * 24, lastCheck := some now } := by
  unfold placeVoice
  rw [hl]
  dsimp only
  rw [if_pos h, if_neg (Bool.eq_false_iff.mp hloop), if_neg (Nat.not_le.mpr hx), startOf, hl]

end
end

end Sys2Proof.OnboardSound
end

section
/-! Stop requests (R171) and the check of a locked voice (R174, R175). -/
namespace Sys2Proof.OnboardSound
open Sys2Proof.Machine Sys2Proof.Safety

/-! ## One voice is stopped (R171) -/

/-- R171: a PLAYING voice as its fade begins. -/
def fadingFrom (w : Voice) : Voice :=
  match w.jump with
  | .pending _ _ => { w with state := .fading, fadeStep := 63, jump := .none, fetch := max w.fetch w.cursor }
  | .none | .crossfade _ _ _ => { w with state := .fading, fadeStep := 63 }

theorem fadingFrom_pending {w : Voice} {target n : Nat} (h : w.jump = .pending target n) : fadingFrom w
    = { w with state := .fading, fadeStep := 63, jump := .none, fetch := max w.fetch w.cursor } := by
  rw [fadingFrom, h]

theorem fadingFrom_plain {w : Voice} (h : ∀ target n, w.jump ≠ .pending target n) :
    fadingFrom w = { w with state := .fading, fadeStep := 63 } := by
  unfold fadingFrom
  split
  · rename_i target n hj
    exact absurd hj (h target n)
  · rfl
  · rfl

theorem fadingFrom_frame (w : Voice) : ∃ jump fetch, fadingFrom w
    = { w with state := .fading, fadeStep := 63, jump := jump, fetch := fetch } := by
  unfold fadingFrom
  split <;> exact ⟨_, _, rfl⟩

theorem fadingFrom_rank (w : Voice) (k : Nat) : fadingFrom { w with rank := k } = { fadingFrom w with rank := k } := by
  unfold fadingFrom
  dsimp only
  split <;> rfl

section
variable {e : SoundEngine} {v : Nat} {w : Voice} (hw : e.voices[v]? = some w)
include hw

theorem set_self (x : Voice) : (e.voices.set v x)[v]? = some x := by
  obtain ⟨hlt, _⟩ := List.getElem?_eq_some_iff.mp hw
  exact List.getElem?_set_self hlt

/-- R171: a PENDING jump is abandoned with its read. -/
theorem stopVoice_playing_pending (hs : w.state = .playing) {target n : Nat} (hj : w.jump = .pending target n) :
    stopVoice e v = ({ e.endRead v with voices := e.voices.set v (fadingFrom w) }, none) := by
  rw [stopVoice, hw]
  dsimp only
  rw [hs]
  dsimp only
  rw [hj, fadingFrom_pending hj]

theorem stopVoice_playing_plain (hs : w.state = .playing) (hj : ∀ target n, w.jump ≠ .pending target n) :
    stopVoice e v = ({ e with voices := e.voices.set v (fadingFrom w) }, none) := by
  rw [stopVoice, hw, fadingFrom_plain hj]
  dsimp only
  rw [hs]
  dsimp only
  split
  · rename_i target n hpending
    exact absurd hpending (hj target n)
  · rfl
  · rfl

theorem stopVoice_playing (hs : w.state = .playing) :
    (stopVoice e v).1.voices = e.voices.set v (fadingFrom w) ∧ (stopVoice e v).2 = none := by
  by_cases hj : ∃ target n, w.jump = .pending target n
  · obtain ⟨target, n, hj⟩ := hj
    rw [stopVoice_playing_pending hw hs hj]
    exact ⟨rfl, rfl⟩
  · rw [stopVoice_playing_plain hw hs fun target n h => hj ⟨target, n, h⟩]
    exact ⟨rfl, rfl⟩

/-- R171: a voice that has nothing to output becomes IDLE at once. -/
theorem stopVoice_silent (hs : w.state = .fetching ∨ w.state = .waiting) : stopVoice e v = (e.free v, some w.tag) := by
  rw [stopVoice, hw]
  dsimp only
  rcases hs with hs | hs <;> rw [hs]

theorem stopVoice_stays (hs : w.state = .fading ∨ w.state = .idle) : stopVoice e v = (e, none) := by
  rw [stopVoice, hw]
  dsimp only
  rcases hs with hs | hs <;> rw [hs]

end

/-- R171: stopping a voice does no more to another one than lower its start order. -/
theorem stopVoice_lowers {e : SoundEngine} {v i : Nat} {x : Voice} (hi : i ≠ v) (hx : e.voices[i]? = some x) :
    Lowered x (stopVoice e v).1.voices[i]? := by
  cases hv : e.voices[v]? with
  | none => exact .of_eq (by rw [stopVoice, hv]; exact hx)
  | some w =>
    cases hs : w.state with
    | playing => exact .of_eq (by rw [(stopVoice_playing hv hs).1, List.getElem?_set_ne hi.symm, hx])
    | fetching => rw [stopVoice_silent hv (.inl hs)]; exact free_lowers hi hx
    | waiting => rw [stopVoice_silent hv (.inr hs)]; exact free_lowers hi hx
    | fading => rw [stopVoice_stays hv (.inl hs)]; exact .of_eq hx
    | idle => rw [stopVoice_stays hv (.inr hs)]; exact .of_eq hx

/-! ## A stop request to several voices (R171) -/

/-- One voice in turn at a stop request. -/
def stopStep (p : Voice → Bool) (acc : SoundEngine × List VoiceTag) (v : Nat) : SoundEngine × List VoiceTag :=
  match acc.1.voices[v]? with
  | none => acc
  | some w => if p w then ((stopVoice acc.1 v).1, acc.2 ++ (stopVoice acc.1 v).2.toList) else acc

theorem stopVoices_eq (p : Voice → Bool) (e : SoundEngine) :
    stopVoices p e = (List.range e.voices.length).foldl (stopStep p) (e, []) := rfl

section
variable {p : Voice → Bool} {acc : SoundEngine × List VoiceTag} {v : Nat} {w : Voice}

theorem stopStep_named (hw : acc.1.voices[v]? = some w) (hp : p w = true) :
    (stopStep p acc v).1 = (stopVoice acc.1 v).1 := by
  rw [stopStep, hw]
  dsimp only
  rw [if_pos hp]

theorem stopStep_unnamed (hw : acc.1.voices[v]? = some w) (hp : p w = false) : stopStep p acc v = acc := by
  rw [stopStep, hw]
  exact if_neg (Bool.eq_false_iff.mp hp)

theorem stopStep_lowers {i : Nat} {x : Voice} (hi : i ≠ v) (hx : acc.1.voices[i]? = some x) :
    Lowered x (stopStep p acc v).1.voices[i]? := by
  cases hv : acc.1.voices[v]? with
  | none => exact .of_eq (by rw [stopStep, hv]; exact hx)
  | some w =>
    cases hp : p w with
    | true => rw [stopStep_named hv hp]; exact stopVoice_lowers hi hx
    | false => rw [stopStep_unnamed hv hp]; exact .of_eq hx

theorem stopSteps_lower {vs : List Nat} {i : Nat} {x : Voice} (hi : i ∉ vs) (hx : acc.1.voices[i]? = some x) :
    Lowered x (vs.foldl (stopStep p) acc).1.voices[i]? := by
  induction vs generalizing acc x with
  | nil => exact .of_eq hx
  | cons v vs ih =>
    rw [List.mem_cons, not_or] at hi
    exact (stopStep_lowers hi.1 hx).trans fun y hy => ih hi.2 hy

end

/-- R171: what a stop request makes of a voice is what its own turn makes of it, but for start orders that fall. -/
theorem stopVoices_turn (p : Voice → Bool) {e : SoundEngine} {v : Nat} {w : Voice} (hw : e.voices[v]? = some w) :
    ∃ mid k, k ≤ w.rank ∧ mid.1.voices[v]? = some { w with rank := k }
      ∧ ∀ y, (stopStep p mid v).1.voices[v]? = some y → Lowered y (stopVoices p e).1.voices[v]? := by
  obtain ⟨hlt, _⟩ := List.getElem?_eq_some_iff.mp hw
  obtain ⟨before, after, hsplit⟩ := List.append_of_mem (List.mem_range.mpr hlt)
  have hnodup := List.nodup_middle.mp (hsplit ▸ List.nodup_range (n := e.voices.length))
  rw [List.nodup_cons, List.mem_append, not_or] at hnodup
  obtain ⟨⟨hbefore, hafter⟩, -⟩ := hnodup
  obtain ⟨k, hk, hmid⟩ := stopSteps_lower (p := p) (acc := (e, [])) hbefore hw
  refine ⟨_, k, hk, hmid, fun y hy => ?_⟩
  rw [stopVoices_eq, hsplit, List.foldl_append, List.foldl_cons]
  exact stopSteps_lower hafter hy

section
variable {p : Voice → Bool} (hrank : ∀ q k, p { q with rank := k } = p q) {e : SoundEngine} {v : Nat} {w : Voice}
  (hw : e.voices[v]? = some w)
include hrank hw

theorem stopVoices_stays (h : p w = false ∨ w.state = .idle ∨ w.state = .fading) :
    Lowered w (stopVoices p e).1.voices[v]? := by
  obtain ⟨mid, k, hk, hmid, hafter⟩ := stopVoices_turn p hw
  have hstep : (stopStep p mid v).1 = mid.1 := by
    cases hp : p w with
    | false => rw [stopStep_unnamed hmid ((hrank w k).trans hp)]
    | true =>
      have hstays : stopVoice mid.1 v = (mid.1, none) :=
        stopVoice_stays hmid ((h.resolve_left (by simp [hp])).symm)
      rw [stopStep_named hmid ((hrank w k).trans hp), hstays]
  exact Lowered.trans ⟨k, hk, rfl⟩ fun x hx => hafter x (by rw [hstep, hmid, hx])

theorem stopVoices_silent (hp : p w = true) (hs : w.state = .fetching ∨ w.state = .waiting) :
    (stopVoices p e).1.voices[v]? = some Voice.idle := by
  obtain ⟨mid, k, -, hmid, hafter⟩ := stopVoices_turn p hw
  have hactive : w.state ≠ .idle := by rcases hs with hs | hs <;> simp [hs]
  have hstep : (stopStep p mid v).1.voices[v]? = some Voice.idle := by
    rw [stopStep_named hmid ((hrank w k).trans hp), stopVoice_silent hmid hs]
    exact free_self hmid hactive
  obtain ⟨j, hj, h⟩ := hafter _ hstep
  obtain rfl : j = 0 := Nat.le_zero.mp hj
  exact h

theorem stopVoices_playing (hp : p w = true) (hs : w.state = .playing) :
    Lowered (fadingFrom w) (stopVoices p e).1.voices[v]? := by
  obtain ⟨mid, k, hk, hmid, hafter⟩ := stopVoices_turn p hw
  have hstep : (stopStep p mid v).1.voices[v]? = some { fadingFrom w with rank := k } := by
    rw [stopStep_named hmid ((hrank w k).trans hp), (stopVoice_playing hmid hs).1, set_self hmid, fadingFrom_rank]
  have hfrom : (fadingFrom w).rank = w.rank := by
    obtain ⟨_, _, h⟩ := fadingFrom_frame w
    rw [h]
  exact Lowered.trans ⟨k, hk.trans_eq hfrom.symm, rfl⟩ fun x hx => hafter x (hstep.trans hx)

end

/-! ## The check of a locked voice (R174, R175) -/

theorem checkDue_iff (resync now : Nat) (w : Voice) : checkDue resync now w = true
    ↔ resync ≠ 0 ∧ (w.lastCheck = none ∨ ∃ t, w.lastCheck = some t ∧ resync ≤ now - t) := by
  unfold checkDue
  cases w.lastCheck <;> simp

theorem not_beyond {clip : Clip} {x : Nat} (h : clip.loops = true ∨ x < clip.length) :
    ¬ (!clip.loops && decide (clip.length ≤ x)) = true := by
  rcases h with h | h
  · simp [h]
  · simp [Nat.not_le.mpr h]

/-- R175: the place in its clip to which a voice jumps. -/
def jumpTarget (clip : Clip) (x : Nat) : Nat := if clip.loops then x % clip.length else x

section
variable {now estimate anchor v : Nat} {w : Voice} {clip : Clip} {e : SoundEngine}

theorem checkVoice_ahead (h : sceneReached estimate anchor = false) : checkVoice now estimate anchor v w clip e =
    ({ e.endRead v with voices := e.voices.set v { w with
        state := .waiting, bufs := [], cursor := 0, fetch := 0, lastCheck := some now, underrun := false
        waitExpiry := some (now + sceneWait estimate anchor) } }, none) := if_neg (Bool.eq_false_iff.mp h)

section
variable (h : sceneReached estimate anchor = true)
include h

theorem checkVoice_beyond (hloop : clip.loops = false) (hx : clip.length ≤ sceneSince estimate anchor * 24) :
    checkVoice now estimate anchor v w clip e = (e.free v, some w.tag) := by
  rw [checkVoice, if_pos h]
  exact if_pos (by rw [hloop, decide_eq_true hx]; rfl)

variable (hx : clip.loops = true ∨ sceneSince estimate anchor * 24 < clip.length)
include hx

theorem checkVoice_near (hdrift : driftOf clip w.cursor (sceneSince estimate anchor * 24) ≤ 480) :
    checkVoice now estimate anchor v w clip e
      = ({ e with voices := e.voices.set v { w with lastCheck := some now } }, none) := by
  rw [checkVoice, if_pos h]
  dsimp only
  rw [if_neg (not_beyond hx)]
  exact if_pos hdrift

theorem checkVoice_jumps (hdrift : 480 < driftOf clip w.cursor (sceneSince estimate anchor * 24)) :
    checkVoice now estimate anchor v w clip e = ({ e.endRead v with
      voices := e.voices.set v
        { startJump (jumpTarget clip (sceneSince estimate anchor * 24)) w with lastCheck := some now } }, none) := by
  rw [checkVoice, if_pos h]
  dsimp only
  rw [if_neg (not_beyond hx)]
  exact if_neg (Nat.not_le.mpr hdrift)

end
end

/-! ## The voice that takes a request, and the others -/

theorem startRequest_judged (s : State) (req : StartRequest) {v : Nat} {w : Voice} {c : Clip}
    (ht : s.sound.target req.priority = some v) (hw : s.sound.voices[v]? = some w) (hc : s.sound.clip req.clip = some c) :
    (startVoice s req).stolen = (if w.state = .idle then none else some w.tag)
    ∧ (∀ q, placement s req c v = some q →
      (startVoice s req).ended = false ∧ (startVoice s req).engine.voices[v]? = some q)
    ∧ (placement s req c v = none → (startVoice s req).ended = true
      ∧ ∃ q, (startVoice s req).engine.voices[v]? = some q ∧ q.state = .idle)
    ∧ (∀ i x, i ≠ v → s.sound.voices[i]? = some x → (startVoice s req).engine.voices[i]? = some { x with
        rank := if w.state ≠ .idle ∧ w.rank < x.rank then x.rank - 1 else x.rank }) := by
  obtain ⟨q0, hself, hidle⟩ := cleared_self hw
  cases hp : placement s req c v with
  | none =>
    rw [startVoice_ended hc ht hw hp]
    exact ⟨rfl, nofun, fun _ => ⟨rfl, q0, hself, hidle⟩, fun i x hi hx => cleared_other hw hi hx⟩
  | some q =>
    rw [startVoice_placed hc ht hw hp]
    refine ⟨rfl, fun y hy => ⟨rfl, ?_⟩, nofun, fun i x hi hx => ?_⟩
    · rw [← hy]
      exact set_self hself q
    · dsimp only
      rw [List.getElem?_set_ne hi.symm]
      exact cleared_other hw hi hx

/-- Settles O58: the choice by the first IDLE voice or the best victim, the placing and the check by their cases, and a stop
request by the turn of each voice, beside which only start orders fall. -/
theorem voiceChosen : Obligations.VoiceChosen := by
  refine ⟨fun s req => ⟨fun h => ?_, fun _ => target_chosen, target_none_iff, startVoice_started_iff, fun h => ?_,
      fun v w c ht hw hc => startRequest_judged s req ht hw hc⟩,
    fun now clip req rank => ⟨fun _ => placeVoice_unlocked now clip req rank,
      fun _ _ => placeVoice_ahead now clip req rank, fun _ _ hl h => ⟨placeVoice_loops now clip req rank hl h,
        placeVoice_beyond now clip req rank hl h, placeVoice_within now clip req rank hl h⟩⟩,
    fun e v w hw => ⟨fun hs => ?_, fun hs => ?_, stopVoice_stays hw⟩, fun _ _ _ => rfl, checkDue_iff,
    fun now estimate anchor v w clip e hw hs => ⟨fun h => ?_, fun h hloop hx => ?_, fun h hx hd => ?_, fun h hx hd => ?_⟩,
    fun p e v w hrank hw => ⟨stopVoices_stays hrank hw, stopVoices_silent hrank hw, fun hp hs => ?_⟩⟩
  · rw [startVoice_absent h]
    exact ⟨rfl, rfl⟩
  · rw [startVoice_untargeted h]
    exact ⟨rfl, rfl⟩
  · obtain ⟨jump, fetch, hfading⟩ := fadingFrom_frame w
    refine ⟨(stopVoice_playing hw hs).2, fadingFrom w, ?_, ?_⟩
    · rw [(stopVoice_playing hw hs).1]
      exact set_self hw _
    · refine ⟨by rw [hfading], by rw [hfading], by rw [hfading], by rw [hfading], fun hj => ?_, fun target n hj => ?_⟩
      · rw [stopVoice_playing_plain hw hs hj, fadingFrom_plain hj]
        exact ⟨rfl, rfl, rfl⟩
      · rw [stopVoice_playing_pending hw hs hj, fadingFrom_pending hj]
        exact ⟨rfl, rfl, endRead_not_reading e v⟩
  · have hactive : w.state ≠ .idle := by rcases hs with hs | hs <;> simp [hs]
    rw [stopVoice_silent hw hs]
    exact ⟨free_self hw hactive, free_not_reading hw hactive, rfl⟩
  · rw [checkVoice_ahead h]
    exact ⟨rfl, endRead_not_reading e v, set_self hw _⟩
  · rw [checkVoice_beyond h hloop hx]
    exact ⟨rfl, free_not_reading hw hs, free_self hw hs⟩
  · rw [checkVoice_near h hx hd]
    exact ⟨rfl, rfl, set_self hw _⟩
  · rw [checkVoice_jumps h hx hd]
    exact ⟨rfl, endRead_not_reading e v, set_self hw _⟩
  · obtain ⟨k, hk, hafter⟩ := stopVoices_playing hrank hw hp hs
    obtain ⟨jump, fetch, hfading⟩ := fadingFrom_frame w
    refine ⟨fadingFrom w, k, ?_, by rw [hfading] at hk; exact hk, hafter⟩
    rw [(stopVoice_playing hw hs).1]
    exact set_self hw _

end Sys2Proof.OnboardSound
end

section
/-! The values that a configuration block gives (R181, R122, R135; Table 10.2): each lies in its range, and those of a
condition and of a counter are as the block's fields say. -/
namespace Sys2Proof.StartUp
open Sys2Proof.Machine Sys2Proof.RideLink

/-! ## Fields and clamps -/

theorem byteAt_lt (bs : List Byte) (i : Nat) : byteAt bs i < 256 := BitVec.isLt _

theorem half2_lt (bs : List Byte) (i : Nat) : half2 bs i < 65536 := by
  have hhigh := byteAt_lt bs i
  have hlow := byteAt_lt bs (i + 1)
  unfold half2
  omega

theorem given16_lt {block : List Byte} {o v : Nat} (h : given16 block o = some v) : v < 65536 := by
  unfold given16 at h
  split at h
  · exact nomatch h
  · injection h with h
    exact h ▸ half2_lt block o

theorem clampNat_eq {lo hi : Nat} (h : lo ≤ hi) (v : Nat) : clampNat lo hi v = max lo (min hi v) := by
  unfold clampNat
  split
  · omega
  · split <;> omega

theorem clampNat_bounds {lo hi : Nat} (h : lo ≤ hi) (v : Nat) : lo ≤ clampNat lo hi v ∧ clampNat lo hi v ≤ hi := by
  rw [clampNat_eq h]
  omega

theorem ranged_none (lo hi dflt : Nat) : (ranged lo hi dflt none).value = dflt := rfl

theorem ranged_some {lo hi : Nat} (h : lo ≤ hi) (dflt v : Nat) :
    (ranged lo hi dflt (some v)).value = max lo (min hi v) := clampNat_eq h v

/-- R181: a value whose default lies in its range lies in its range. -/
theorem ranged_bounds (lo hi dflt : Nat) (v : Option Nat) (hlo : lo ≤ dflt := by decide) (hhi : dflt ≤ hi := by decide) :
    lo ≤ (ranged lo hi dflt v).value ∧ (ranged lo hi dflt v).value ≤ hi := by
  cases v with
  | none => exact ⟨hlo, hhi⟩
  | some v => exact clampNat_bounds (hlo.trans hhi) v

theorem clipValue_le (v : Option Nat) (c : Nat) (h : (clipValue v).value = some c) : c ≤ 127 := by
  cases v with
  | none => exact nomatch h
  | some v =>
    injection h with h
    exact h ▸ (clampNat_bounds (Nat.zero_le 127) v).2

theorem resyncValue_range (v : Option Nat) :
    (resyncValue v).value = 0 ∨ (200 ≤ (resyncValue v).value ∧ (resyncValue v).value ≤ 5000) := by
  unfold resyncValue
  split
  · decide
  · exact .inl rfl
  · exact .inr (clampNat_bounds (by decide) _)

theorem patternValue_ne_zero {v : Nat} (h : v < 65536) : (patternValue v).value ≠ 0 := by
  unfold patternValue
  split
  · decide
  · intro hzero
    have := congrArg BitVec.toNat hzero
    simp at this
    omega

/-! ## The plain values (Table 10.2) -/

/-- Settles O13: each value is a default or clamped to the range of its row. -/
theorem configValuesInRange : Obligations.ConfigValuesInRange := by
  intro block
  have hflash := ranged_bounds 1 1024 256 (given16 block 2)
  refine ⟨takeBlock_address_le block, ⟨?_, ?_, Nat.mul_mod_right 65536 _⟩,
    ranged_bounds 20 100 50 _, ranged_bounds 200 5000 500 _, ranged_bounds 20 500 100 _, ranged_bounds 60 1000 150 _,
    ranged_bounds 300 5000 1000 _, ranged_bounds 100 10000 1000 _, ranged_bounds 1000 6000 3000 _,
    ranged_bounds 5 100 20 _, ranged_bounds 200 5000 1000 _, ranged_bounds 200 2000 800 _,
    ranged_bounds 100 1500 500 _, ranged_bounds 100 1000 300 _, (ranged_bounds 0 255 32 _).2,
    ranged_bounds 500 5000 2000 _, ranged_bounds 100 2000 1500 _, clipValue_le _, clipValue_le _,
    ranged_bounds 2000 20000 8000 _, ranged_bounds 50 500 120 _, ranged_bounds 1 6 6 _,
    patternValue_ne_zero (half2_lt block 46), ranged_bounds 300 3000 500 _, ranged_bounds 200 2000 800 _,
    ranged_bounds 100 250 160 _, ranged_bounds 1 31 8 _, resyncValue_range _⟩
  · exact Nat.mul_le_mul_left 65536 hflash.1
  · exact Nat.mul_le_mul_left 65536 hflash.2

/-! ## The values of a condition (R122) -/

theorem levelFloor_le (i : Nat) : levelFloors.getD i 1 ≤ 7 := by
  by_cases h : i < 25
  · have hall : ∀ j < 25, levelFloors.getD j 1 ≤ 7 := by decide
    exact hall i h
  · have : levelFloors.getD i 1 = 1 := by
      simp [levelFloors, List.getD_eq_getElem?_getD, Nat.not_lt.mp h]
    omega

/-- R122: a condition is DIRECT with no count, or ANNOUNCE_FIRST, where its byte says so at a level of at most 5. -/
theorem responseValue_cases (level : Nat) (v : Option Nat) :
    ((responseValue level v).value = (false, 0) ∧ ∀ b, v = some b → b < 128 ∨ 6 ≤ level)
    ∨ ∃ b, v = some b ∧ 128 ≤ b ∧ level ≤ 5 ∧ (responseValue level v).value = (true, max 1 (min 7 (b - 128))) := by
  cases v with
  | none => exact .inl ⟨rfl, nofun⟩
  | some b =>
    unfold responseValue
    dsimp only
    split
    · rename_i hb
      exact .inl ⟨rfl, fun _ e => .inl (Option.some.inj e ▸ hb)⟩
    · rename_i hb
      split
      · rename_i hl
        exact .inl ⟨rfl, fun _ _ => .inr hl⟩
      · rename_i hl
        refine .inr ⟨b, rfl, Nat.le_of_not_lt hb, Nat.le_of_not_lt hl, ?_⟩
        rw [clampTaken, clampNat_eq (by decide)]

theorem conditionClip_iff (clips : List (Option Clip)) (v : Option Nat) (n : Nat) :
    (conditionClip clips v).value = some n ↔ v = some n ∧ ∃ c, clips[n]? = some (some c) := by
  have held : ∀ m : Nat, (clips[m]?).join.isSome = true ↔ ∃ c, clips[m]? = some (some c) := fun m => by
    simp [Option.isSome_iff_exists, Option.join_eq_some_iff]
  cases v with
  | none => simp [conditionClip]
  | some m =>
    unfold conditionClip
    dsimp only
    split
    · rename_i h
      rw [held] at h
      exact ⟨fun e => ⟨e, Option.some.inj e ▸ h⟩, fun e => e.1⟩
    · rename_i h
      rw [held] at h
      refine ⟨nofun, fun ⟨e, hn⟩ => absurd ?_ h⟩
      exact Option.some.inj e ▸ hn

section
variable (block : List Byte) (clips : List (Option Clip)) (id : Nat)

/-- R122: response and count of a condition are judged at its level. -/
theorem takeCondition_response : (responseValue (takeCondition block clips id).value.level
    (given8 block (conditionOffset id + 1))).value
      = ((takeCondition block clips id).value.announceFirst, (takeCondition block clips id).value.count) := rfl

/-- R125: a condition that answers directly keeps no clip. -/
theorem takeCondition_clip : (takeCondition block clips id).value.clip
    = if (takeCondition block clips id).value.announceFirst then
        (conditionClip clips (given8 block (conditionOffset id + 2))).value else none := rfl

theorem takeCondition_level_none (h : levelByte block id = none) :
    (takeCondition block clips id).value.level = defaultLevels.getD (id - 1) 1 := by
  show (ranged _ _ _ (levelByte block id)).value = _
  rw [h, ranged_none]

theorem takeCondition_level_some {v : Nat} (h : levelByte block id = some v) :
    (takeCondition block clips id).value.level = max (levelFloors.getD (id - 1) 1) (min 7 v) := by
  show (ranged _ _ _ (levelByte block id)).value = _
  rw [h, ranged_some (levelFloor_le _)]

theorem takeCondition_announceFirst_iff : (takeCondition block clips id).value.announceFirst = true ↔
    ∃ b, given8 block (conditionOffset id + 1) = some b ∧ 128 ≤ b ∧ (takeCondition block clips id).value.level ≤ 5 := by
  have hcases := responseValue_cases (takeCondition block clips id).value.level (given8 block (conditionOffset id + 1))
  rw [takeCondition_response] at hcases
  rcases hcases with ⟨hdirect, hnone⟩ | ⟨b, hb, hhigh, hlevel, hfirst⟩
  · refine ⟨fun h => absurd (h.symm.trans (Prod.mk.inj hdirect).1) (by decide), fun ⟨b, hb, hhigh, hlevel⟩ => ?_⟩
    have := hnone b hb
    omega
  · exact ⟨fun _ => ⟨b, hb, hhigh, hlevel⟩, fun _ => (Prod.mk.inj hfirst).1⟩

theorem takeCondition_count {b : Nat} (ha : (takeCondition block clips id).value.announceFirst = true)
    (hb : given8 block (conditionOffset id + 1) = some b) :
    (takeCondition block clips id).value.count = max 1 (min 7 (b - 128)) := by
  have hcases := responseValue_cases (takeCondition block clips id).value.level (given8 block (conditionOffset id + 1))
  rw [takeCondition_response, ha, hb] at hcases
  rcases hcases with ⟨hn, -⟩ | ⟨b', hb', -, -, hcount⟩
  · exact nomatch hn
  · rw [(Prod.mk.inj hcount).2, Option.some.inj hb']

theorem takeCondition_direct (ha : (takeCondition block clips id).value.announceFirst = false) :
    (takeCondition block clips id).value.count = 0 ∧ (takeCondition block clips id).value.clip = none := by
  have hcases := responseValue_cases (takeCondition block clips id).value.level (given8 block (conditionOffset id + 1))
  rw [takeCondition_response, ha] at hcases
  rw [takeCondition_clip, ha]
  rcases hcases with ⟨hcount, -⟩ | ⟨_, -, -, -, hn⟩
  · exact ⟨(Prod.mk.inj hcount).2, rfl⟩
  · exact nomatch hn

theorem takeCondition_clip_iff (n : Nat) : (takeCondition block clips id).value.clip = some n ↔
    (takeCondition block clips id).value.announceFirst = true ∧ given8 block (conditionOffset id + 2) = some n
      ∧ ∃ c, clips[n]? = some (some c) := by
  rw [takeCondition_clip, ← conditionClip_iff]
  cases (takeCondition block clips id).value.announceFirst <;> simp

end

/-! ## The values of a counter (R135, Table 7.5) -/

section
variable (block : List Byte) (k : Nat)

theorem takeCounter_limit : (takeCounter block k).value.limit
    = (ranged 1 65535 65535 (given16 block (counterOffset k + 8))).value := rfl

theorem takeCounter_limit_none (h : given16 block (counterOffset k + 8) = none) :
    (takeCounter block k).value.limit = 65535 := by
  rw [takeCounter_limit, h, ranged_none]

theorem takeCounter_limit_some {v : Nat} (h : given16 block (counterOffset k + 8) = some v) :
    (takeCounter block k).value.limit = max 1 v := by
  rw [takeCounter_limit, h, ranged_some (by decide), Nat.min_eq_right (Nat.le_of_lt_succ (given16_lt h))]

theorem takeCounter_limit_bounds : 1 ≤ (takeCounter block k).value.limit ∧ (takeCounter block k).value.limit ≤ 65535 :=
  ranged_bounds 1 65535 65535 _

theorem takeCounter_preset : (takeCounter block k).value.preset
    = min ((takeCounter block k).value.limit - 1) ((given16 block (counterOffset k + 6)).getD 0) := by
  show clampNat 0 ((takeCounter block k).value.limit - 1) _ = _
  rw [clampNat_eq (Nat.zero_le _), Nat.zero_max]

theorem takeCounter_preset_lt : (takeCounter block k).value.preset < (takeCounter block k).value.limit := by
  have hpos := (takeCounter_limit_bounds block k).1
  rw [takeCounter_preset]
  omega

theorem takeCounter_threshold_le : (takeCounter block k).value.threshold ≤ 63 :=
  Nat.le_of_lt_succ (Nat.mod_lt _ (by decide))

/-- Counter 1 is never chained (log 25). -/
theorem takeCounter_chained (h : (takeCounter block k).value.chained = true) : k ≠ 1 := by
  have hflag : (_ && k != 1) = true := h
  simp only [Bool.and_eq_true, bne_iff_ne] at hflag
  exact hflag.2

end

end Sys2Proof.StartUp
end

section
/-! The two resets (R180, R186): FULL_RESET with its end, and RESTART with the show restart. An entry into START or
FAULT that no cue waits for is handed on with nothing to follow, so that the state after a show restart is exact. -/
namespace Sys2Proof.StartUp
open Sys2Proof.Machine Sys2Proof.Safety Sys2Proof.RideLink Sys2Proof.Standing Sys2Proof.MotionControl

/-! ## FULL_RESET and FULL_RESET_END (R180, R76) -/

/-- An occurrence that may be made. -/
theorem latch_when_calm (b : Bool) (id : Nat) (s : State) : Calm s (if b then latch id s else s) := by
  split
  · exact latch_calm id s
  · exact Calm.refl s

theorem inputsAtReset_calm (s : State) : Calm s (inputsAtReset s) :=
  (latch_when_calm s.driveFaultIn 9 s).trans (latch_when_calm _ 10 _)

theorem inputsAtReset_released {s : State} (hd : s.driveFaultIn = false) (hl : s.localStopIn = false) :
    inputsAtReset s = s := by
  simp [inputsAtReset, hd, hl]

theorem inputsAtReset_driveFault {s : State} (ht : TablesOk s) (hd : s.driveFaultIn = true) :
    Latched (inputsAtReset s) 9 := by
  have hlatched : Latched (if s.driveFaultIn then latch 9 s else s) 9 := by
    rw [if_pos hd]
    exact latch_latched 9 s (by decide) (by rw [ht.records]; decide)
  exact hlatched.aside (latch_when_calm _ 10 _).toAside

theorem inputsAtReset_localStop {s : State} (ht : TablesOk s) (hl : s.localStopIn = true) :
    Latched (inputsAtReset s) 10 := by
  have hcalm := latch_when_calm s.driveFaultIn 9 s
  unfold inputsAtReset
  dsimp only
  rw [if_pos (hcalm.outside.localStopIn.trans hl)]
  exact latch_latched 10 _ (by decide) (by rw [hcalm.grows.length, ht.records]; decide)

theorem exec_fullResetEnd_held {s : State} (h : s.resetHeld = true) :
    exec .fullResetEnd s = .next (settle (inputsAtReset { s with resetHeld := false })) :=
  congrArg Host.Outcome.next (if_pos h)

/-- During the image load the arbiter has nothing to grant (R167). -/
theorem still_load_begins {s : State} (h : Still s) (hp : s.loader.progress = .loading) :
    Still { s with resetHeld := false } :=
  (still_iff _).mpr ⟨h.notices, (still_judged h).of_eq rfl rfl rfl, .inl (by simp [State.loading, hp])⟩

/-- Settles O10: the reset state by its definition, and its end by what an input found asserted makes of it. -/
theorem fullResetTaken : Obligations.FullResetTaken := by
  refine ⟨fun s => rfl, fun s hheld htables => ?_, fun s hheld hload hd hl hstill => ?_, fun s hheld => ?_⟩
  · have htables : TablesOk { s with resetHeld := false } := Tables.tablesOk_of_part htables rfl
    have haside := settle_aside (inputsAtReset { s with resetHeld := false })
    exact ⟨_, exec_fullResetEnd_held hheld, (inputsAtReset_calm _).toAside.trans haside,
      fun h => (inputsAtReset_driveFault htables h).aside haside, fun h => (inputsAtReset_localStop htables h).aside haside⟩
  · rw [exec_fullResetEnd_held hheld, inputsAtReset_released (s := { s with resetHeld := false }) hd hl,
      (still_load_begins hstill hload).settle]
  · exact congrArg Host.Outcome.next (if_neg (by simp [hheld]))

/-! ## Entries into START and FAULT handed on (R78) -/

/-- A motion state that the part enters by a load or a reset. -/
def LoadState (st : MotionState) : Prop := st = .start ∨ st = .fault

/-- The motion state is replaced, without its handing on. -/
def withState (st : MotionState) (s : State) : State := { s with motion := { s.motion with state := st } }

/-- The state after such an entry has been handed on: the unlock conditions are withdrawn (R116) and HOLD_LONG ends
(R137). -/
def enteredLoad (st : MotionState) (s : State) : State := endDuration .holdLong (withdrawUnlock (withState st s))

/-- R78: the handing on of an entry into START or FAULT that no cue waits for. -/
theorem deliver_loadState {st : MotionState} (h : LoadState st) {s : State} (hc : noMotionCue s st) :
    deliverBy waits st (withState st s) = enteredLoad st s := by
  have hnone : cuesWhere (fun t => t = .motion st.code) (enteredLoad st s) = [] := hc
  rcases h with rfl | rfl
  all_goals
    show occurWhereBy waits _ (enteredLoad _ s) = _
    rw [occurWhereBy, hnone]
    rfl

/-- With no entry waiting there is nothing to hand on. -/
theorem handNotices_quiet (n : Nat) {s : State} (h : s.motion.notices = []) : handNotices (n + 1) s = s := by
  rw [handNotices, h]

@[simp] theorem enteredLoad_settings (st : MotionState) (s : State) : (enteredLoad st s).settings = s.settings := rfl
@[simp] theorem enteredLoad_now (st : MotionState) (s : State) : (enteredLoad st s).now = s.now := rfl

theorem judgeStanding_loadState {s : State} (h : LoadState s.motion.state) : judgeStanding s = s := by
  rcases h with h | h <;> rw [judgeStanding, h]

/-- R78: such an entry is settled by its handing on, where none waits before it. -/
theorem settle_enter_loadState {st : MotionState} (h : LoadState st) {s : State} (hn : s.motion.notices = [])
    (hc : noMotionCue s st) : settle (enter st s) = arbitrate (enteredLoad st s) := by
  have hnotices : (enter st s).motion.notices = [st] := by rw [enter_notices, hn]; rfl
  have hquiet : (enteredLoad st s).motion.notices = [] := hn
  have hfront : { enter st s with motion := { (enter st s).motion with notices := [] } } = withState st s := by
    rw [← hn]
    rfl
  have hhanded : atOnce (enter st s) = enteredLoad st s := by
    rw [atOnce, handNotices_cons 63 hnotices, hfront, deliver_loadState h hc, handNotices_quiet 62 hquiet]
  have hloop : settleLoop 64 (enter st s) = enteredLoad st s := by
    rw [settleLoop, judgeStanding_loadState (s := enter st s) h, hnotices]
    show settleLoop 63 (atOnce (enter st s)) = _
    rw [hhanded, settleLoop, judgeStanding_loadState (s := enteredLoad st s) h, hquiet]
  rw [settle, hloop]

/-! ## RESTART (R186) -/

theorem exec_restart {s : State} {source target : Nat} (h : Accepted s .restart source target) :
    exec (.restart source target) s = .next (settle (ownRestart source (received s))) := by
  rw [exec_commandHeader rfl, commandRow_accepted h]
  rfl

theorem exec_restart_refused {s : State} {source target : Nat} (h : Accepted s .restart source target) (hs : Still s)
    {reason : RefusalReason} (hr : restartRefusal s = some reason) :
    exec (.restart source target) s = .next (refuse .restart reason source (received s)) := by
  have hown : ownRestart source (received s) = refuse .restart reason source (received s) := by
    rw [ownRestart, show restartRefusal (received s) = some reason from hr]
  rw [exec_restart h, hown, settle_refuse hs]

/-- Every block at its show-restart values, before START is entered. -/
def atRestart (s : State) : State :=
  { restraintRestart s with
    link := s.link.restart
    peers := List.replicate 31 none
    route := none
    tracker := s.tracker.restart
    motion := s.motion.restart
    claims := []
    cond := s.cond.restart
    cues := { table := [], waiting := [] }
    sound := s.sound.restart
    loader := { progress := .loading, listenExpiry := none, staged := none } }

@[simp] theorem atRestart_settings (s : State) : (atRestart s).settings = s.settings := rfl
@[simp] theorem atRestart_now (s : State) : (atRestart s).now = s.now := rfl

theorem showRestart_eq (s : State) : showRestart s = enter .start (atRestart s) := rfl

/-- R186: after a show restart no cue is left and the load holds the flash port, so that nothing follows the entry. -/
theorem settle_showRestart {s : State} (hn : s.motion.notices = []) :
    settle (showRestart s) = enteredLoad .start (atRestart s) := by
  rw [showRestart_eq, settle_enter_loadState (s := atRestart s) (.inl rfl) hn rfl]
  exact (arbitrate_eq_iff _).mpr (.inl (Bool.or_eq_true_iff.mpr (.inr rfl)))

theorem exec_restart_taken {s : State} {source target : Nat} (h : Accepted s .restart source target) (hs : Still s)
    (hr : restartRefusal s = none) :
    exec (.restart source target) s = .next (enteredLoad .start (atRestart (received s))) := by
  have hown : ownRestart source (received s) = showRestart (received s) := by
    rw [ownRestart, show restartRefusal (received s) = none from hr]
  rw [exec_restart h, hown, settle_showRestart (s := received s) hs.notices]

/-- R120: the seats start anew. -/
theorem seats_atRestart (s : State) : (enteredLoad .start (atRestart s)).restraint.seats = List.replicate 6 Seat.reset :=
  List.map_replicate

/-- R120: each line keeps its mismatch count and its capture. -/
theorem lines_atRestart (s : State) :
    (enteredLoad .start (atRestart s)).restraint.lines.map (fun l => (l.mismatches, l.capture))
      = s.restraint.lines.map (fun l => (l.mismatches, l.capture)) := by
  show (s.restraint.lines.map fun l => { Line.reset with mismatches := l.mismatches, capture := l.capture }).map _ = _
  rw [List.map_map]
  rfl

theorem restartRefusal_moving {s : State} (h : 0 < s.speed) : restartRefusal s = some .moving := if_pos h

theorem restartRefusal_taken {s : State} (h : s.speed = 0)
    (hm : s.motion.state = .parked ∨ s.motion.state = .stopped ∨ s.motion.state = .estop ∨ s.motion.state = .fault) :
    restartRefusal s = none := by
  rcases hm with hm | hm | hm | hm <;> simp [restartRefusal, h, hm]

theorem restartRefusal_wrongState {s : State} (h : s.speed = 0)
    (hm : s.motion.state = .start ∨ s.motion.state = .ready ∨ s.motion.state = .running ∨ s.motion.state = .holding
      ∨ s.motion.state = .stopping) : restartRefusal s = some .wrongState := by
  rcases hm with hm | hm | hm | hm | hm <;> simp [restartRefusal, h, hm]

/-- Settles O11: the state after a RESTART that is taken is exact, and a refusal touches the link alone. -/
theorem restartJudged : Obligations.RestartJudged := by
  intro s source target hacc hstill
  refine ⟨fun hspeed hstate => ?_, fun hspeed => exec_restart_refused hacc hstill (restartRefusal_moving hspeed),
    fun hspeed hstate => exec_restart_refused hacc hstill (restartRefusal_wrongState hspeed hstate)⟩
  refine ⟨_, exec_restart_taken hacc hstill (restartRefusal_taken hspeed hstate), ⟨rfl, rfl, rfl, rfl, rfl, rfl, rfl⟩,
    ⟨rfl, rfl, peer_reset, rfl⟩, rfl,
    ?_, ?_, ?_, ?_⟩
  · exact ⟨rfl, rfl, rfl, rfl, rfl, rfl, rfl, rfl, rfl, rfl, rfl⟩
  · exact ⟨rfl, rfl, rfl, rfl, rfl⟩
  · exact ⟨rfl, seats_atRestart (received s), lines_atRestart (received s)⟩
  · exact ⟨rfl, by simp [received], by simp [received]⟩

end Sys2Proof.StartUp
end

section
/-! Occurrences during the image load in START (R123, R126, Table 4.5): no announcement is made and the level has no effect,
so that they set flags, fill the first-fault record and hand the level on, and do no more. -/
namespace Sys2Proof.StartUp
open Sys2Proof.Machine Sys2Proof.Safety Sys2Proof.Conditions

/-! ## What they change -/

/-- The part is in the image load of START, and no motion state entry waits. -/
structure InLoad (s : State) : Prop where
  start : s.motion.state = .start
  quiet : s.motion.notices = []
  loading : s.loading = true

/-- Each record keeps all but its flag, and no flag is cleared. -/
def FlagsGrow (rs ds : List Condition) : Prop :=
  ∀ (i : Nat) (c : Condition), rs[i]? = some c →
    ∃ b, ds[i]? = some { c with latched := b } ∧ (c.latched = true → b = true)

theorem FlagsGrow.refl (rs : List Condition) : FlagsGrow rs rs := fun _ c hc => ⟨c.latched, hc, id⟩

theorem FlagsGrow.trans {rs ds es : List Condition} (h : FlagsGrow rs ds) (g : FlagsGrow ds es) : FlagsGrow rs es :=
  fun i c hc => by
    obtain ⟨b, hb, hkeep⟩ := h i c hc
    obtain ⟨b', hb', hkeep'⟩ := g i _ hb
    exact ⟨b', hb', fun hl => hkeep' (hkeep hl)⟩

/-- The Condition Unit with other records, first-fault record and level last handed on. -/
def withFlags (rs : List Condition) (ff : Option FirstFault) (l : Nat) (s : State) : State :=
  { s with cond := { s.cond with records := rs, firstFault := ff, handed := l } }

/-- Flags are set, the first-fault record may be filled and the level handed on, and nothing else changes. -/
def FlagsOnly (s t : State) : Prop := ∃ rs ff l, t = withFlags rs ff l s ∧ FlagsGrow s.cond.records rs

theorem FlagsOnly.refl (s : State) : FlagsOnly s s :=
  ⟨s.cond.records, s.cond.firstFault, s.cond.handed, rfl, FlagsGrow.refl _⟩

theorem FlagsOnly.trans {s t u : State} (h : FlagsOnly s t) (g : FlagsOnly t u) : FlagsOnly s u := by
  obtain ⟨rs, ff, l, rfl, hgrow⟩ := h
  obtain ⟨rs', ff', l', rfl, hgrow'⟩ := g
  exact ⟨rs', ff', l', rfl, hgrow.trans hgrow'⟩

theorem FlagsOnly.counters {s t : State} (h : FlagsOnly s t) : t.cond.counters = s.cond.counters := by
  obtain ⟨rs, ff, l, rfl, -⟩ := h
  rfl

theorem FlagsOnly.cues {s t : State} (h : FlagsOnly s t) : t.cues = s.cues := by
  obtain ⟨rs, ff, l, rfl, -⟩ := h
  rfl

theorem InLoad.flagsOnly {s t : State} (hs : InLoad s) (h : FlagsOnly s t) : InLoad t := by
  obtain ⟨rs, ff, l, rfl, -⟩ := h
  exact ⟨hs.start, hs.quiet, hs.loading⟩

/-! ## One occurrence -/

theorem fillFirstFault_flagsOnly (id : Nat) (s : State) : FlagsOnly s (fillFirstFault id s) := by
  unfold fillFirstFault
  split
  · exact FlagsOnly.refl s
  · split
    · exact ⟨s.cond.records, _, s.cond.handed, rfl, FlagsGrow.refl _⟩
    · exact FlagsOnly.refl s

theorem onRecord_flagsOnly (id : Nat) (s : State) : FlagsOnly s (onRecord id (fun c => { c with latched := true }) s) := by
  refine ⟨_, s.cond.firstFault, s.cond.handed, rfl, fun i c hc => ?_⟩
  split
  · exact ⟨c.latched, hc, fun h => h⟩
  · rw [updateAt, List.getElem?_modify, hc]
    by_cases hi : id - 1 = i
    · exact ⟨true, by simp [hi], fun _ => rfl⟩
    · exact ⟨c.latched, by simp [hi], fun h => h⟩

theorem flagged_flagsOnly (id : Nat) (s : State) : FlagsOnly s (flagged id s) :=
  (onRecord_flagsOnly id s).trans (fillFirstFault_flagsOnly id _)

/-- Table 4.5: in START the level has no effect. -/
theorem handLevel_inLoad {s : State} (h : InLoad s) : FlagsOnly s (handLevel s) := by
  unfold handLevel handLevelBy
  split
  · exact FlagsOnly.refl s
  · have happly : applyLevel (levelHanded s) = levelHanded s := by
      unfold applyLevel
      rw [show (levelHanded s).motion.state = .start from h.start]
    rw [show ({ s with cond := { s.cond with handed := s.level } } : State) = levelHanded s from rfl, happly,
      atOnce_quiet (s := levelHanded s) h.quiet]
    exact ⟨s.cond.records, s.cond.firstFault, s.level, rfl, FlagsGrow.refl _⟩

/-- R123: no announcement is made during the image load. -/
theorem announceBy_loading (h : State → State) (hold : Bool) (id : Nat) {s : State} (hl : s.loading = true) :
    announceBy h hold id s = (s, false) := by
  cases hc : s.cond.record id with
  | none => rw [announceBy, hc]
  | some c => exact announceBy_silent hc (.inr (.inl hl))

theorem latch_inLoad {s : State} (h : InLoad s) (id : Nat) : FlagsOnly s (latch id s) := by
  have hflagged := flagged_flagsOnly id s
  rw [latch_of_announce (announceBy_loading atOnce false id (h.flagsOnly hflagged).loading)]
  exact hflagged.trans (handLevel_inLoad (h.flagsOnly hflagged))

/-! ## Several occurrences -/

theorem latches_inLoad (ks : List Nat) {s : State} (h : InLoad s) :
    FlagsOnly s (ks.foldl (fun a k => latch (19 + k) a) s) := by
  induction ks generalizing s with
  | nil => exact FlagsOnly.refl s
  | cons k ks ih =>
    have hfirst := latch_inLoad h (19 + k)
    exact hfirst.trans (ih (h.flagsOnly hfirst))

theorem latchClamped_inLoad {s : State} (h : InLoad s) (clamped : Bool) : FlagsOnly s (latchClamped clamped s) := by
  unfold latchClamped
  split
  · exact latch_inLoad h 1
  · exact FlagsOnly.refl s

theorem latches_calm (ks : List Nat) (s : State) : Calm s (ks.foldl (fun a k => latch (19 + k) a) s) :=
  Calm.foldl _ (fun a k => latch_calm (19 + k) a) ks s

/-- R139: each trip of a list latches its TALLY condition. -/
theorem latches_latched {k : Nat} {ks : List Nat} (hk : k ∈ ks) {s : State} (hlen : 19 + k ≤ s.cond.records.length) :
    Latched (ks.foldl (fun a j => latch (19 + j) a) s) (19 + k) := by
  obtain ⟨before, after, rfl⟩ := List.append_of_mem hk
  rw [List.foldl_append, List.foldl_cons]
  refine (latch_latched (19 + k) _ (by omega) ?_).aside (latches_calm after _).toAside
  rw [(latches_calm before s).grows.length]
  exact hlen

theorem latchClamped_latched {clamped : Bool} (hc : clamped = true) {s : State} (ht : TablesOk s) :
    Latched (latchClamped clamped s) 1 := by
  rw [latchClamped, if_pos hc]
  exact latch_latched 1 s (by decide) (by rw [ht.records]; decide)

end Sys2Proof.StartUp
end

section
/-! The values of a block come into force (R122, R135, R143): what `takeValues` makes of each condition and of each
counter, and what the taking in force leaves of it (`configure`). -/
namespace Sys2Proof.StartUp
open Sys2Proof.Machine Sys2Proof.Safety Sys2Proof.Conditions Sys2Proof.Tallies

/-! ## Conditions (R122, R143) -/

/-- R122: a condition under the values of a block. -/
def configuredCondition (block : List Byte) (clips : List (Option Clip)) (id : Nat) (c : Condition) : Condition :=
  if fixedCondition id then c else Condition.configure (takeCondition block clips id).value c

theorem configuredCondition_latched (block : List Byte) (clips : List (Option Clip)) (id : Nat) (c : Condition) :
    (configuredCondition block clips id c).latched = c.latched := by
  unfold configuredCondition
  split <;> rfl

theorem configuredCondition_fixed {id : Nat} (h : fixedCondition id = true) (block : List Byte)
    (clips : List (Option Clip)) (c : Condition) : configuredCondition block clips id c = c := if_pos h

theorem configuredCondition_free {id : Nat} (h : fixedCondition id = false) (block : List Byte)
    (clips : List (Option Clip)) (c : Condition) : configuredCondition block clips id c
      = Condition.configure (takeCondition block clips id).value c := if_neg (by simp [h])

/-- R143: a condition whose response and count stay keeps its count. -/
theorem configure_same {q : ConditionConfig} {c : Condition} (ha : c.announceFirst = q.announceFirst)
    (hc : c.count = q.count) : Condition.configure q c = { c with level := q.level, clip := q.clip } := by
  simp [Condition.configure, ← ha, ← hc]

/-- R143: a condition whose response or count changes starts its count anew. -/
theorem configure_changed {q : ConditionConfig} {c : Condition}
    (h : c.announceFirst ≠ q.announceFirst ∨ c.count ≠ q.count) :
    Condition.configure q c = { c with
      level := q.level, announceFirst := q.announceFirst, count := q.count, remaining := q.count, escalated := false
      clip := q.clip } := by
  have hsame : (decide (c.announceFirst = q.announceFirst) && decide (c.count = q.count)) = false := by
    simpa [← not_and_or] using h
  simp [Condition.configure, hsame]

theorem record_takeValues (st : Staged) (clips : List (Option Clip)) {s : State} {id : Nat} {c : Condition}
    (hc : s.cond.record id = some c) :
    (takeValues st clips s).cond.record id = some (configuredCondition st.block clips id c) := by
  obtain ⟨hlow, hget⟩ := record_some_iff.mp hc
  refine record_some_iff.mpr ⟨hlow, ?_⟩
  show (configureRecords st.block clips s.cond.records)[id - 1]? = _
  rw [configureRecords, List.getElem?_map, List.getElem?_zipIdx, hget, Option.map_some, Option.map_some]
  simp only [Nat.zero_add, Nat.sub_add_cancel hlow]
  rfl

/-- No flag is cleared by the values of a block. -/
theorem takeValues_latched (st : Staged) (clips : List (Option Clip)) {s : State} {id : Nat} (h : Latched s id) :
    Latched (takeValues st clips s) id := by
  obtain ⟨c, hc, hlatched⟩ := h
  exact ⟨_, record_takeValues st clips hc, (configuredCondition_latched ..).trans hlatched⟩

/-! ## Counters (R135, R138, R143) -/

/-- R143: a counter that becomes chained is armed as counter 1 is tripped. -/
def chainedArm (old : Counter) (first : Bool) (c : Counter) : Counter :=
  if c.chained && !old.chained then { c with armed := first } else c

/-- R143: counter k under the values of a block, before the trips that they make. -/
def configuredCounter (block : List Byte) (k : Nat) (c : Counter) : Counter :=
  Counter.configure k (takeCounter block k).value c

theorem mem_configuredTrips {block : List Byte} {cs : List Counter} {i : Nat} {c : Counter} (hc : cs[i]? = some c) :
    i + 1 ∈ configuredTrips block cs ↔ (configuredCounter block (i + 1) c).tripped = true ∧ c.tripped = false := by
  simp [configuredTrips, List.mem_zipIdx_iff_getElem?, hc, configureTrips, configuredCounter]

/-- The counters under the values of a block, before the trips that they make. -/
def configuredCounters (block : List Byte) (cs : List Counter) : List Counter :=
  cs.zipIdx.map fun p => configuredCounter block (p.2 + 1) p.1

theorem configureCounters_eq (block : List Byte) (u : ConditionUnit) : configureCounters block u
    = { applyTrips (configuredTrips block u.counters) { u with counters := configuredCounters block u.counters } with
        counters := armChained u.counters
          ((configuredCounters block u.counters).map (armedBy (configuredTrips block u.counters))) } := rfl

theorem getElem?_configuredCounters {block : List Byte} {cs : List Counter} {i : Nat} {c : Counter}
    (hc : cs[i]? = some c) : (configuredCounters block cs)[i]? = some (configuredCounter block (i + 1) c) := by
  simp [configuredCounters, List.getElem?_zipIdx, hc]

theorem configureCounters_counter {block : List Byte} {u : ConditionUnit} {i : Nat} {c first : Counter}
    (hc : u.counters[i]? = some c) (hfirst : u.counters[0]? = some first) :
    (configureCounters block u).counters[i]? = some (chainedArm c (configuredCounter block 1 first).tripped
      (armedBy (configuredTrips block u.counters) (configuredCounter block (i + 1) c))) := by
  rw [configureCounters_eq]
  simp [armChained, List.getElem?_zipIdx, getElem?_configuredCounters hc, getElem?_configuredCounters hfirst, hc, chainedArm]

/-- R140: a freeze-on-trip trip freezes. -/
theorem configureCounters_frozen {block : List Byte} {u : ConditionUnit} {i : Nat} {c : Counter}
    (hc : u.counters[i]? = some c) (ht : i + 1 ∈ configuredTrips block u.counters)
    (hfreeze : (takeCounter block (i + 1)).value.freeze = true) : (configureCounters block u).frozen = true := by
  rw [configureCounters_eq]
  simp only [applyTrips, Bool.or_eq_true, List.any_eq_true]
  refine .inr ⟨i + 1, ht, ?_⟩
  rw [Nat.add_sub_cancel, getElem?_configuredCounters hc]
  exact hfreeze

theorem configureCounters_stays_frozen (block : List Byte) {u : ConditionUnit} (h : u.frozen = true) :
    (configureCounters block u).frozen = true := by
  rw [configureCounters_eq]
  simp [applyTrips, h]

/-! ## One counter (R135, R138, R143) -/

/-- The counter has the configuration of another. -/
def HasConfig (q c : Counter) : Prop := c = { q with value := c.value, tripped := c.tripped, armed := c.armed }

theorem HasConfig.trans {q c d : Counter} (h : HasConfig q c) (g : HasConfig c d) : HasConfig q d :=
  Eq.trans g (by rw [h])

theorem configuredCounter_config (block : List Byte) (k : Nat) (c : Counter) :
    HasConfig (takeCounter block k).value (configuredCounter block k c) := rfl

theorem armedBy_config (trips : List Nat) (c : Counter) : HasConfig c (armedBy trips c) := by
  unfold armedBy
  split <;> rfl

theorem chainedArm_config (old : Counter) (first : Bool) (c : Counter) : HasConfig c (chainedArm old first c) := by
  unfold chainedArm
  split <;> rfl

@[simp] theorem chainedArm_value (old : Counter) (first : Bool) (c : Counter) :
    (chainedArm old first c).value = c.value := by
  unfold chainedArm
  split <;> rfl

@[simp] theorem chainedArm_tripped (old : Counter) (first : Bool) (c : Counter) :
    (chainedArm old first c).tripped = c.tripped := by
  unfold chainedArm
  split <;> rfl

/-- R138: a value at the limit is a trip, but for counter 1 with event 0 (log 35). -/
theorem configuredCounter_tripped_iff (block : List Byte) (k : Nat) (c : Counter) :
    (configuredCounter block k c).tripped = true ↔
      (takeCounter block k).value.limit ≤ (configuredCounter block k c).value
        ∧ (c.tripped = true ∨ k ≠ 1 ∨ (takeCounter block k).value.event ≠ .none) := by
  simp [configuredCounter, Counter.configure, neverTrips]

/-- The trip of counter 1 by its configuration. -/
theorem one_mem_configuredTrips {block : List Byte} {cs : List Counter} {first : Counter} (h : cs[0]? = some first) :
    (configuredTrips block cs).contains 1 = ((configuredCounter block 1 first).tripped && !first.tripped) := by
  rw [Bool.eq_iff_iff, List.contains_iff_mem, mem_configuredTrips h]
  simp

section
variable {q old : Counter} {trips : List Nat} {first : Bool}

/-- R143: a counter that becomes chained is armed as counter 1 is tripped. -/
theorem armed_becomes_chained (hq : q.chained = true) (ho : old.chained = false) :
    (chainedArm old first (armedBy trips q)).armed = first := by
  have hchained : (armedBy trips q).chained = true := (congrArg Counter.chained (armedBy_config trips q)).trans hq
  simp [chainedArm, hchained, ho]

/-- R138: a counter that was chained is armed also by a trip of counter 1. -/
theorem armed_stays_chained (hq : q.chained = true) (ho : old.chained = true) :
    (chainedArm old first (armedBy trips q)).armed = (q.armed || trips.contains 1) := by
  cases ht : trips.contains 1 <;> simp [chainedArm, armedBy, hq, ho, ht, -List.contains_eq_mem]

theorem armed_unchained (hq : q.chained = false) :
    (chainedArm old first (armedBy trips q)).armed = q.armed := by
  simp [chainedArm, armedBy, hq]

end

theorem takeValues_counter_eq (st : Staged) (clips : List (Option Clip)) {s : State} {i : Nat} {c first : Counter}
    (hc : s.cond.counters[i]? = some c) (hfirst : s.cond.counters[0]? = some first) :
    (takeValues st clips s).cond.counters[i]? = some (chainedArm c (configuredCounter st.block 1 first).tripped
      (armedBy (configuredTrips st.block s.cond.counters) (configuredCounter st.block (i + 1) c))) :=
  configureCounters_counter (u := { s.cond with records := configureRecords st.block clips s.cond.records }) hc hfirst

/-- What the values of a block make of a counter, but for its arming. -/
theorem takeValues_counter (st : Staged) (clips : List (Option Clip)) {s : State} {i : Nat} {c : Counter}
    (hc : s.cond.counters[i]? = some c) : ∃ e, (takeValues st clips s).cond.counters[i]? = some e
      ∧ HasConfig (takeCounter st.block (i + 1)).value e
      ∧ e.value = (configuredCounter st.block (i + 1) c).value
      ∧ e.tripped = (configuredCounter st.block (i + 1) c).tripped := by
  obtain ⟨hlt, -⟩ := List.getElem?_eq_some_iff.mp hc
  have hfirst := List.getElem?_eq_getElem (Nat.zero_lt_of_lt hlt)
  refine ⟨_, takeValues_counter_eq st clips hc hfirst, ?_, by simp, by simp⟩
  exact ((configuredCounter_config ..).trans (armedBy_config ..)).trans (chainedArm_config ..)

/-! ## The taking in force (R183) -/

theorem configure_calm (st : Staged) (clips : List (Option Clip)) (s : State) :
    Calm (takeValues st clips s) (configure st clips s) := (latches_calm _ _).trans (handLevel_calm _)

theorem InLoad.takeValues {s : State} (h : InLoad s) (st : Staged) (clips : List (Option Clip)) :
    InLoad (Machine.takeValues st clips s) := ⟨h.start, h.quiet, h.loading⟩

theorem configure_inLoad {s : State} (h : InLoad s) (st : Staged) (clips : List (Option Clip)) :
    FlagsOnly (takeValues st clips s) (configure st clips s) := by
  have hlatches := latches_inLoad (configuredTrips st.block s.cond.counters) (h.takeValues st clips)
  exact hlatches.trans (handLevel_inLoad ((h.takeValues st clips).flagsOnly hlatches))

/-- R139, R143: a counter that trips by its configuration latches its condition. -/
theorem configure_trip_latched (st : Staged) (clips : List (Option Clip)) {s : State} (ht : TablesOk s) {k : Nat}
    (hle : k ≤ 4) (hk : k ∈ configuredTrips st.block s.cond.counters) : Latched (configure st clips s) (19 + k) := by
  refine (latches_latched hk ?_).aside (handLevel_calm _).toAside
  rw [(Tables.tablesOk_takeValues ht st clips).records]
  omega

end Sys2Proof.StartUp
end

section
/-! The load that fails (R181, R182, R184): FAULT is entered with the values of the block or without, and with an own address
the beacon becomes due (R3). -/
namespace Sys2Proof.StartUp
open Sys2Proof.Machine Sys2Proof.Safety Sys2Proof.RideLink Sys2Proof.Standing Sys2Proof.Conditions
  Sys2Proof.Tallies

/-! ## The beacon at once (R3) -/

/-- What the beacon made due at once leaves of the link. -/
structure BeaconDue (s : State) (l : Link) : Prop where
  rest : l = { s.link with beaconTimer := l.beaconTimer, beaconDue := l.beaconDue, access := l.access, slots := l.slots }
  due : l.beaconDue.isSome = true
  timer : ∃ j, j ≤ 3 ∧ l.beaconTimer = some (s.now + s.settings.beaconPeriod + j)

theorem BeaconDue.queue {s : State} {l : Link} (h : BeaconDue s l) : l.queue = s.link.queue := by rw [h.rest]
theorem BeaconDue.seq {s : State} {l : Link} (h : BeaconDue s l) : l.seq = s.link.seq := by rw [h.rest]

/-- R3, R4: the link, the free draws and the running durations change alone. -/
theorem beaconAtOnce_frame (s : State) : ∃ l n ds,
    beaconAtOnce s = { s with link := l, draws := n, cond := { s.cond with durations := ds } } ∧ BeaconDue s l := by
  unfold beaconAtOnce
  cases hd : s.link.beaconDue with
  | some d =>
    rw [beaconBecomesDue_due (s := loadBeaconTimer s) hd]
    exact ⟨_, _, s.cond.durations, rfl, rfl, Option.isSome_of_eq_some hd, _, jitter_le_three _, rfl⟩
  | none =>
    rw [beaconBecomesDue_none (s := loadBeaconTimer s) hd]
    obtain ⟨a, n, d, e⟩ := requestChannel_frame (beaconWaits (loadBeaconTimer s))
    rw [e]
    exact ⟨_, _, _, rfl, rfl, rfl, _, jitter_le_three _, rfl⟩

/-! ## FAULT (R184) -/

/-- What the entering of FAULT leaves of the link. -/
structure FaultLink (s : State) (l : Link) : Prop where
  rest : l = { s.link with beaconTimer := l.beaconTimer, beaconDue := l.beaconDue, access := l.access, slots := l.slots }
  silent : s.link.ownAddress = 0 → l = s.link
  beacon : s.link.ownAddress ≠ 0 → BeaconDue s l

theorem enterFault_frame (s : State) : ∃ l n ds,
    enterFault s = { loadFails s with link := l, draws := n, cond := { s.cond with durations := ds } } ∧ FaultLink s l := by
  unfold enterFault
  split
  · rename_i h
    exact ⟨s.link, s.draws, s.cond.durations, rfl, rfl, fun _ => rfl, fun hn => absurd h hn⟩
  · rename_i h
    obtain ⟨l, n, ds, e, hdue⟩ := beaconAtOnce_frame (loadFails s)
    exact ⟨l, n, ds, e, hdue.rest, fun hz => absurd hz h, fun _ => ⟨hdue.rest, hdue.due, hdue.timer⟩⟩

theorem durations_grows (u : ConditionUnit) (ds : List Duration) : CondGrows u { u with durations := ds } :=
  CondGrows.of_eq rfl rfl rfl (sameCounters rfl)

/-- The state after a load has failed: FAULT with the brake, the load ended, and all else as the load left it. -/
structure Failed (u t : State) : Prop where
  fault : t.motion.state = .fault
  brake : t.brakeLine = true
  loader : t.loader = { progress := .failed, listenExpiry := none, staged := none }
  settings : t.settings = u.settings
  route : t.route = u.route
  peers : t.peers = u.peers
  tracker : t.tracker = u.tracker
  claims : t.claims = u.claims
  now : t.now = u.now
  clips : t.sound.clips = u.sound.clips
  running : t.restraint.running = true
  n : t.restraint.n = 0
  link : FaultLink (validFrame u) t.link
  grows : CondGrows u.cond t.cond

/-- R184: FAULT as a load enters it, settled. -/
theorem failed_settle (u : State) : Failed u (settle (enterFault (loadEnds u))) := by
  obtain ⟨l, n, ds, e, hlink⟩ := enterFault_frame (loadEnds u)
  have haside := settle_aside (enterFault (loadEnds u))
  rw [e] at haside ⊢
  have hfault := haside.fault.mpr rfl
  exact
    { fault := hfault
      brake := by rw [State.brakeLine, hfault]; rfl
      loader := haside.outside.loader
      settings := haside.outside.settings
      route := haside.outside.route
      peers := haside.outside.peers
      tracker := haside.outside.tracker
      claims := haside.outside.claims
      now := haside.outside.now
      clips := haside.outside.clips
      running := haside.outside.running
      n := haside.outside.n
      link := by
        rw [haside.outside.link]
        exact ⟨hlink.rest, hlink.silent, fun h => ⟨(hlink.beacon h).rest, (hlink.beacon h).due, (hlink.beacon h).timer⟩⟩
      grows := (durations_grows u.cond ds).trans haside.grows }

namespace Failed
variable {u t : State} (h : Failed u t)
include h

theorem ownAddress : t.link.ownAddress = u.link.ownAddress := by rw [h.link.rest]; rfl
theorem queue : t.link.queue = u.link.queue := by rw [h.link.rest]; rfl
theorem silence : t.link.silence = some u.now := by rw [h.link.rest]; rfl
theorem audible : t.link.silent = false := by rw [h.link.rest]; rfl

end Failed

/-- The load has ended without an image. -/
def unloaded (s : State) : State := { s with loader := { progress := .failed, listenExpiry := none, staged := none } }

theorem loadFails_eq (s : State) : loadFails s = enter .fault (unloaded s) := rfl

/-- R78: in a load without an own address and without cues nothing follows the entry into FAULT, and the counters stay. -/
theorem failed_counters {u : State} (hu : InLoad u) (haddress : u.link.ownAddress = 0) (htable : u.cues.table = []) :
    (settle (enterFault (loadEnds u))).cond.counters = u.cond.counters := by
  have hcue : noMotionCue (unloaded (loadEnds u)) .fault := by
    show (u.cues.table.zipIdx.filterMap _ : List Nat) = []
    rw [htable]
    rfl
  have hfails : enterFault (loadEnds u) = enter .fault (unloaded (loadEnds u)) := (if_pos haddress).trans (loadFails_eq _)
  obtain ⟨r, e⟩ := arbitrate_eq (enteredLoad .fault (unloaded (loadEnds u)))
  rw [hfails, settle_enter_loadState (s := unloaded (loadEnds u)) (.inr rfl) hu.quiet hcue, e]
  rfl

/-! ## The clamps before (R181, R122) -/

/-- What the occurrences of CONFIG_CLAMPED before the values come into force may do (log 29). -/
structure Clamps (s v : State) : Prop where
  calm : Calm s v
  load : InLoad s → FlagsOnly s v

theorem Clamps.refl (s : State) : Clamps s s := ⟨Calm.refl s, fun _ => FlagsOnly.refl s⟩

theorem Clamps.latch {s v : State} (h : Clamps s v) (clamped : Bool) : Clamps s (latchClamped clamped v) :=
  ⟨h.calm.trans (latchClamped_calm clamped v),
    fun hs => (h.load hs).trans (latchClamped_inLoad (hs.flagsOnly (h.load hs)) clamped)⟩

theorem inLoad_of_still {s : State} (hm : s.motion.state = .start) (h : Still s) (hp : s.loader.progress = .loading) :
    InLoad s := ⟨hm, h.notices, by simp [State.loading, hp]⟩

/-! ## The values of a load that takes no image (R182, R122, R135, R143) -/

/-- The state in which the values of a load without an image come into force. -/
def beforeNoImage (st : Staged) (s : State) : State := latchClamped (blockValuesClamped st (List.replicate 128 none)) s

theorem beforeNoImage_clamps {s w : State} (h : Clamps s w) (st : Staged) : Clamps s (beforeNoImage st w) := h.latch _

/-- A load that takes no image fails once the block's values have come into force, with an empty clip table (log 21). -/
theorem noImage_eq (st : Staged) (s : State) :
    noImage st s = enterFault (loadEnds (configure st (List.replicate 128 none) (beforeNoImage st s))) := rfl

theorem latched_grows {s t : State} {id : Nat} (h : Latched s id) (g : CondGrows s.cond t.cond) : Latched t id := by
  obtain ⟨c, hc, hl⟩ := h
  obtain ⟨d, hd, hgrows⟩ := record_grows g hc
  exact ⟨d, hd, hgrows.latched hl⟩

section
variable {st : Staged} {clips : List (Option Clip)} {s v t : State} (hv : Clamps s v)
  (ht : Failed (configure st clips v) t)

include ht in
/-- What the load leaves after the values have come into force only adds to them. -/
theorem failed_grows : CondGrows (takeValues st clips v).cond t.cond := (configure_calm st clips v).grows.trans ht.grows

include hv ht

/-- R122, R143: each condition after the failed load. -/
theorem failed_record {id : Nat} {c : Condition} (hc : s.cond.record id = some c) : ∃ d, t.cond.record id = some d
    ∧ (c.latched = true → d.latched = true)
    ∧ (fixedCondition id = true →
      d.level = c.level ∧ d.announceFirst = c.announceFirst ∧ d.count = c.count ∧ d.clip = c.clip)
    ∧ (fixedCondition id = false →
      let q := (takeCondition st.block clips id).value
      d.level = q.level ∧ d.announceFirst = q.announceFirst ∧ d.count = q.count ∧ d.clip = q.clip) := by
  obtain ⟨b, hb, hbefore⟩ := record_grows hv.calm.grows hc
  obtain ⟨d, hd, hafter⟩ := record_grows (failed_grows ht) (record_takeValues st clips hb)
  refine ⟨d, hd, fun hl => hafter.latched ?_, fun hfixed => ?_, fun hfree => ?_⟩
  · rw [configuredCondition_latched]
    exact hbefore.latched hl
  · rw [configuredCondition_fixed hfixed] at hafter
    exact ⟨hafter.level.trans hbefore.level, hafter.announceFirst.trans hbefore.announceFirst,
      hafter.count.trans hbefore.count, hafter.clip.trans hbefore.clip⟩
  · rw [configuredCondition_free hfree] at hafter
    exact ⟨hafter.level, hafter.announceFirst, hafter.count, hafter.clip⟩

/-- R135, R138, R143: each counter after the failed load. -/
theorem failed_counter {i : Nat} {c : Counter} (hc : s.cond.counters[i]? = some c) : ∃ d, t.cond.counters[i]? = some d
    ∧ HasConfig (takeCounter st.block (i + 1)).value d
    ∧ (InLoad s → TablesOk s → i < 4 → d.limit ≤ max d.preset c.value → c.tripped = false →
      (i + 1 ≠ 1 ∨ d.event ≠ .none) → d.tripped = true ∧ Latched t (19 + (i + 1))) := by
  obtain ⟨b, hb, -⟩ := hv.calm.grows.counters i c hc
  obtain ⟨e, he, hconfig, -, htripped⟩ := takeValues_counter st clips hb
  obtain ⟨d, hd, hgrows⟩ := (failed_grows ht).counters i e he
  have hq : HasConfig (takeCounter st.block (i + 1)).value d := hconfig.trans hgrows.config
  refine ⟨d, hd, hq, fun hload htables hi hlimit huntripped hevent => ?_⟩
  have hsame : b = c := by
    rw [(hv.load hload).counters, hc] at hb
    exact (Option.some.inj hb).symm
  subst hsame
  rw [hq] at hlimit hevent
  have htrips : (configuredCounter st.block (i + 1) b).tripped = true :=
    (configuredCounter_tripped_iff ..).mpr ⟨Nat.le_min.mpr ⟨Nat.le_refl _, hlimit⟩, .inr hevent⟩
  refine ⟨hgrows.tripped (htripped.trans htrips), latched_grows ?_ ht.grows⟩
  exact configure_trip_latched st clips (Tables.tablesOk_calm htables hv.calm) hi
    ((mem_configuredTrips hb).mpr ⟨htrips, huntripped⟩)

theorem failed_frame : t.route = s.route ∧ t.peers = s.peers ∧ t.tracker = s.tracker ∧ t.claims = s.claims
    ∧ t.now = s.now ∧ t.sound.clips = s.sound.clips := by
  have hbefore := hv.calm.outside
  have hafter := (configure_calm st clips v).outside
  exact ⟨ht.route.trans (hafter.route.trans hbefore.route), ht.peers.trans (hafter.peers.trans hbefore.peers),
    ht.tracker.trans (hafter.tracker.trans hbefore.tracker), ht.claims.trans (hafter.claims.trans hbefore.claims),
    ht.now.trans (hafter.now.trans hbefore.now), ht.clips.trans (hafter.clips.trans hbefore.clips)⟩

/-- The link as the entering of FAULT finds it: the own address of the block, the silence timer started (R16). -/
theorem failed_link : FaultLink (validFrame (takeValues st clips s)) t.link := by
  have hbefore := hv.calm.outside
  have hafter := (configure_calm st clips v).outside
  have hlink : (validFrame (configure st clips v)).link = (validFrame (takeValues st clips s)).link := by
    show { (configure st clips v).link with silence := some (configure st clips v).now, silent := false }
      = { s.link with ownAddress := st.address, silence := some s.now, silent := false }
    rw [hafter.link, hafter.now]
    show { v.link with ownAddress := st.address, silence := some v.now, silent := false } = _
    rw [hbefore.link, hbefore.now]
  have hsettings : (validFrame (configure st clips v)).settings = st.settings := hafter.settings
  have hnow : (validFrame (configure st clips v)).now = s.now := hafter.now.trans hbefore.now
  have hfault := ht.link
  refine ⟨?_, fun h => ?_, fun h => ?_⟩
  · rw [← hlink]
    exact hfault.rest
  · rw [← hlink] at h ⊢
    exact hfault.silent h
  · rw [← hlink] at h
    obtain ⟨hrest, hdue, hperiod⟩ := hfault.beacon h
    rw [hsettings, hnow] at hperiod
    exact ⟨by rw [← hlink]; exact hrest, hdue, hperiod⟩

theorem failed_values : t.settings = st.settings ∧ t.link.ownAddress = st.address ∧ t.link.silence = some s.now := by
  refine ⟨ht.settings.trans (configure_calm st clips v).outside.settings, ?_, ?_⟩ <;> rw [(failed_link hv ht).rest] <;> rfl

/-- R184: without an own address the beacon stays as it was. -/
theorem failed_no_beacon (h : st.address = 0) :
    t.link.beaconTimer = s.link.beaconTimer ∧ t.link.beaconDue = s.link.beaconDue := by
  rw [(failed_link hv ht).silent h]
  exact ⟨rfl, rfl⟩

/-- R184, R3: with an own address the beacon is due. -/
theorem failed_beacon (h : st.address ≠ 0) : t.link.beaconDue.isSome = true
    ∧ ∃ j, j ≤ 3 ∧ t.link.beaconTimer = some (s.now + st.settings.beaconPeriod + j) :=
  have hdue := (failed_link hv ht).beacon h
  ⟨hdue.due, hdue.timer⟩

theorem failed_frozen (h : s.cond.frozen = true) : t.cond.frozen = true :=
  (failed_grows ht).frozen (configureCounters_stays_frozen st.block (hv.calm.grows.frozen h))

end

/-! ## IMAGE_LOAD_END with an image that fails (R182) -/

theorem exec_imageLoadEnd {s : State} {image : List Byte} {st : Staged} (hst : s.loader.staged = some st)
    (hp : s.loader.progress = .loading) (hr : s.resetHeld = false) : exec (.imageLoadEnd image) s
      = .next (settle (if imagePasses image st.settings.bodyLength then withImage st image s else noImage st s)) := by
  show execImageLoadEnd image s = _
  rw [execImageLoadEnd, hst]
  dsimp only
  rw [if_pos (by simp [hp, hr])]

/-- A load without an image fails, whatever its clamps latch before. -/
theorem failed_noImage (st : Staged) (s : State) :
    Failed (configure st (List.replicate 128 none) (beforeNoImage st s)) (settle (noImage st s)) := failed_settle _

/-- Settles O15: the block's values come into force with an empty clip table, and FAULT only adds to what they make. -/
theorem imageNotTaken : Obligations.ImageNotTaken := by
  intro s image st hst hp hr himage
  rw [exec_imageLoadEnd hst hp hr, himage, if_neg Bool.false_ne_true]
  have hv := beforeNoImage_clamps (Clamps.refl s) st
  have ht := failed_noImage st s
  obtain ⟨hroute, hpeers, htracker, hclaims, hnow, hclips⟩ := failed_frame hv ht
  obtain ⟨hsettings, haddress, hsilence⟩ := failed_values hv ht
  refine ⟨_, rfl, ht.fault, ht.brake, ht.loader, hsettings, haddress, hroute, hclips, hpeers, htracker, hclaims, hnow,
    hsilence, ht.running, failed_beacon hv ht, fun id c _ _ hc => failed_record hv ht hc, fun k c hlow hhigh hc => ?_,
    failed_frozen hv ht⟩
  obtain ⟨d, hd, hconfig, htrip⟩ := failed_counter hv ht hc
  rw [Nat.sub_add_cancel hlow] at hconfig htrip
  exact ⟨d, hd, hconfig, fun hm hs htables hlimit huntripped hevent =>
    htrip (inLoad_of_still hm hs hp) htables (by omega) hlimit huntripped hevent⟩

/-! ## CONFIG_BLOCK_READ (R181) -/

section
variable {s : State} {block : List Byte} (hp : s.loader.progress = .loading) (hr : s.resetHeld = false)
  (hs : s.loader.staged = none)
include hp hr hs

theorem exec_configBlockRead : exec (.configBlockRead block) s
    = .next (settle (if blockPasses block then passedBlock block s else failedBlock s)) :=
  congrArg Host.Outcome.next (if_pos (by simp [hp, hr, hs]))

theorem exec_configBlockRead_failed (hb : blockPasses block = false) :
    exec (.configBlockRead block) s = .next (settle (enterFault (loadEnds s))) := by
  rw [exec_configBlockRead hp hr hs, hb]
  rfl

theorem exec_configBlockRead_staged (hb : blockPasses block = true) (ha : (takeBlock block).value.address ≠ 0) :
    exec (.configBlockRead block) s
      = .next (settle (stage (takeBlock block).value (latchClamped (takeBlock block).clamped s))) := by
  rw [exec_configBlockRead hp hr hs, if_pos hb, passedBlock, if_neg ha]

theorem exec_configBlockRead_noAddress (hb : blockPasses block = true) (ha : (takeBlock block).value.address = 0) :
    exec (.configBlockRead block) s
      = .next (settle (noImage (takeBlock block).value (latchClamped (takeBlock block).clamped s))) := by
  rw [exec_configBlockRead hp hr hs, if_pos hb, passedBlock, if_pos ha]

end

/-- The loader's own items are beside what side effects touch. -/
theorem stage_aside {s t : State} (h : Aside s t) (st : Staged) :
    Aside { s with loader := { s.loader with staged := some st } } (stage st t) := by
  have hloader : { t.loader with staged := some st } = { s.loader with staged := some st } := by
    rw [h.outside.loader]
  exact { h with outside := { h.outside with loader := hloader }, sizes := { h.sizes with } }

theorem latched_staged {st : Staged} {s : State} {id : Nat} (h : Latched s id) : Latched (settle (stage st s)) id :=
  Latched.aside (s := stage st s) h (settle_aside _)

/-- R143: in a load without an own address and without cues the counters stay as the values of the block make them. -/
theorem failed_counters_configured {st : Staged} {clips : List (Option Clip)} {v : State} (hv : InLoad v)
    (haddress : st.address = 0) (htable : v.cues.table = []) :
    (settle (enterFault (loadEnds (configure st clips v)))).cond.counters = (takeValues st clips v).cond.counters := by
  have hflags := configure_inLoad hv st clips
  have hload : InLoad (configure st clips v) := (hv.takeValues st clips).flagsOnly hflags
  have hlink : (configure st clips v).link = (takeValues st clips v).link := (configure_calm st clips v).outside.link
  rw [failed_counters hload (by rw [hlink]; exact haddress) (by rw [hflags.cues]; exact htable), hflags.counters]

/-- R135, R143: the counter's value then lies between preset and limit. -/
theorem noImage_value {st : Staged} {s w : State} (hw : Clamps s w) (hload : InLoad s) (haddress : st.address = 0)
    (htable : s.cues.table = []) {i : Nat} {c d : Counter} (hc : s.cond.counters[i]? = some c)
    (hd : (settle (noImage st w)).cond.counters[i]? = some d) : d.value = min d.limit (max d.preset c.value) := by
  have hflags := (beforeNoImage_clamps hw st).load hload
  have hv : (beforeNoImage st w).cond.counters[i]? = some c := by rw [hflags.counters]; exact hc
  obtain ⟨e, he, hconfig, hvalue, -⟩ := takeValues_counter st (List.replicate 128 none) hv
  rw [noImage_eq, failed_counters_configured (hload.flagsOnly hflags) haddress (hflags.cues ▸ htable), he] at hd
  rw [← Option.some.inj hd, hvalue, hconfig]
  rfl

/-- Settles O12: a block that fails enters FAULT with the values in force, one with a station address is staged, and one
without is a load that fails with its values. -/
theorem configBlockJudged : Obligations.ConfigBlockJudged := by
  intro s block hp hr hs
  refine ⟨fun hb => ?_, fun hb htables => ?_⟩
  · have ht := failed_settle s
    exact ⟨_, exec_configBlockRead_failed hp hr hs hb, ht.fault, ht.brake, ht.loader, ht.settings, ht.ownAddress, ht.route,
      ht.peers, ht.tracker, ht.claims, ht.now, ht.queue, ht.running, ht.n, ht.silence, ht.audible, ht.grows,
      fun h => by rw [ht.link.silent h]; exact ⟨rfl, rfl⟩, fun h => ⟨(ht.link.beacon h).due, (ht.link.beacon h).timer⟩⟩
  · have hclamps : Clamps s (latchClamped (takeBlock block).clamped s) := (Clamps.refl s).latch _
    by_cases ha : (takeBlock block).value.address = 0
    · have hv := beforeNoImage_clamps hclamps (takeBlock block).value
      have ht := failed_noImage (takeBlock block).value (latchClamped (takeBlock block).clamped s)
      obtain ⟨hroute, hpeers, htracker, hclaims, -, -⟩ := failed_frame hv ht
      obtain ⟨hsettings, haddress, hsilence⟩ := failed_values hv ht
      obtain ⟨htimer, hdue⟩ := failed_no_beacon hv ht ha
      refine ⟨_, exec_configBlockRead_noAddress hp hr hs hb ha, fun hc => ?_, fun h => absurd ha h, fun _ =>
        ⟨ht.fault, ht.brake, ht.loader, hsettings, haddress.trans ha, hroute, hpeers, htracker, hclaims, htimer, hdue,
          ht.running, hsilence, fun id c _ _ hc => failed_record hv ht hc, fun k c hlow hhigh hc => ?_,
          failed_frozen hv ht⟩⟩
      · have hbefore : Latched (beforeNoImage (takeBlock block).value (latchClamped (takeBlock block).clamped s)) 1 :=
          (latchClamped_latched hc htables).aside (latchClamped_calm _ _).toAside
        exact latched_grows (takeValues_latched _ _ hbefore) (failed_grows ht)
      · obtain ⟨d, hd, hconfig, htrip⟩ := failed_counter hv ht hc
        rw [Nat.sub_add_cancel hlow] at hconfig htrip
        refine ⟨d, hd, hconfig, fun hm hstill => ⟨fun htable => ?_,
          htrip (inLoad_of_still hm hstill hp) htables (by omega)⟩⟩
        exact noImage_value hclamps (inLoad_of_still hm hstill hp) ha htable hc hd
    · refine ⟨_, exec_configBlockRead_staged hp hr hs hb ha, fun hc => latched_staged (latchClamped_latched hc htables),
        fun _ => (stage_aside hclamps.calm.toAside _).trans (settle_aside _), fun h => absurd h ha⟩

end Sys2Proof.StartUp
end

section
/-! IMAGE_LOAD_END with an image that passes (R182, R183, R185): in START no occurrence and no entry has a consequence, so
that the state in the listen period is exact but for the flags, the first-fault record and the read that is granted. -/
namespace Sys2Proof.StartUp
open Sys2Proof.Machine Sys2Proof.Safety Sys2Proof.Conditions Sys2Proof.Tallies Sys2Proof.Standing

/-! ## The image and the values that are taken (R182, R183) -/

section
variable (st : Staged) (image : List Byte)

/-- The records of the image of a load. -/
def loadImage : Taken ImageRecords := takeImage image st.settings.flashSize st.address

/-- The configured values with the announcement clips checked. -/
def loadSettings : Taken Settings := checkAnnouncements (loadImage st image).value.clips st.settings

/-- The values that come into force with the image. -/
def loadValues : Staged := { st with settings := (loadSettings st image).value }

/-- Whether a value of the load is changed as it is taken. -/
def loadClamped : Bool := (loadImage st image).clamped || (loadSettings st image).clamped
  || blockValuesClamped st (loadImage st image).value.clips

/-- The state in which the values of a load with an image come into force. -/
def beforeImage (s : State) : State := takeRecords (loadImage st image).value (latchClamped (loadClamped st image) s)

theorem withImage_eq (s : State) : withImage st image s = beginListening (loadEnds
    (configure (loadValues st image) (loadImage st image).value.clips (beforeImage st image s))) := rfl

end

/-- The listen period with these records and values, before flags and reads are looked at. -/
def listening (im : ImageRecords) (st : Staged) (s : State) : State :=
  beginListening (loadEnds (takeValues st im.clips (takeRecords im s)))

/-- The same with other flags, first-fault record, level last handed on and read in progress. -/
def listeningWith (rs : List Condition) (ff : Option FirstFault) (l : Nat) (r : Option Read) (im : ImageRecords)
    (st : Staged) (s : State) : State :=
  { withFlags rs ff l (listening im st s) with sound := { (listening im st s).sound with read := r } }

/-- What the load puts in force and what it leaves as it was. -/
structure ListenFields (im : ImageRecords) (st : Staged) (s t : State) : Prop where
  state : t.motion.state = s.motion.state
  loader : t.loader = { progress := .listening, listenExpiry := some (s.now + st.settings.lostTime), staged := none }
  route : t.route = some im.route
  table : t.cues.table = im.cues
  clips : t.sound.clips = im.clips
  settings : t.settings = st.settings
  address : t.link.ownAddress = st.address
  silence : t.link.silence = some s.now
  silent : t.link.silent = false
  queue : t.link.queue = s.link.queue
  running : t.restraint.running = true
  n : t.restraint.n = 0
  fill : t.restraint.fill = 0
  seats : t.restraint.seats = s.restraint.seats.zipIdx.map fun (q, i) =>
    if st.settings.seatCount ≤ i then { q with state := .unused } else q
  peers : t.peers = s.peers
  tracker : t.tracker = s.tracker
  claims : t.claims = s.claims
  now : t.now = s.now
  counters : t.cond.counters = (takeValues st im.clips s).cond.counters
  frozen : t.cond.frozen = (configureCounters st.block s.cond).frozen

theorem listeningWith_fields (rs : List Condition) (ff : Option FirstFault) (l : Nat) (r : Option Read) (im : ImageRecords)
    (st : Staged) (s : State) : ListenFields im st s (listeningWith rs ff l r im st s) := by
  constructor
  case state | peers | tracker | claims | now =>
    simp only [listeningWith, withFlags, listening, beginListening, loadEnds, restraintLoaded, takeValues, takeRecords,
      validFrame]
  all_goals rfl

/-! ## Flags and the values of conditions commute (R143) -/

theorem getElem?_configureRecords (block : List Byte) (clips : List (Option Clip)) (rs : List Condition) (i : Nat) :
    (configureRecords block clips rs)[i]? = (rs[i]?).map (configuredCondition block clips (i + 1)) := by
  rw [configureRecords, List.getElem?_map, List.getElem?_zipIdx, Nat.zero_add, Option.map_map]
  rfl

theorem configuredCondition_flag (block : List Byte) (clips : List (Option Clip)) (id : Nat) (c : Condition) (b : Bool) :
    configuredCondition block clips id { c with latched := b }
      = { configuredCondition block clips id c with latched := b } := by
  unfold configuredCondition
  split <;> rfl

theorem FlagsGrow.configure {rs ds : List Condition} (h : FlagsGrow rs ds) (block : List Byte)
    (clips : List (Option Clip)) : FlagsGrow (configureRecords block clips rs) (configureRecords block clips ds) :=
  fun i c hc => by
    rw [getElem?_configureRecords, Option.map_eq_some_iff] at hc
    obtain ⟨q, hq, rfl⟩ := hc
    obtain ⟨b, hb, hkeep⟩ := h i q hq
    refine ⟨b, ?_, fun hl => hkeep ((configuredCondition_latched ..).symm.trans hl)⟩
    rw [getElem?_configureRecords, hb, Option.map_some, configuredCondition_flag]

/-! ## The listen period begins (R185) -/

section
variable {st : Staged} {image : List Byte} {s : State}

/-- The state of the listen period. -/
structure Listens (st : Staged) (image : List Byte) (s t : State) : Prop where
  fields : ListenFields (loadImage st image).value (loadValues st image) s t
  flags : FlagsGrow (configureRecords st.block (loadImage st image).value.clips s.cond.records) t.cond.records

/-- R185: nothing follows the image load in START, and the arbiter grants its first read. -/
theorem settle_withImage (h : InLoad s) : Listens st image s (settle (withImage st image s)) := by
  obtain ⟨rs, ff, l, hclamp, hgrow⟩ := latchClamped_inLoad h (loadClamped st image)
  have hbefore : InLoad (beforeImage st image s) := by
    rw [beforeImage, hclamp]
    exact ⟨h.start, h.quiet, h.loading⟩
  obtain ⟨rs', ff', l', hconf, hgrow'⟩ := configure_inLoad hbefore (loadValues st image) (loadImage st image).value.clips
  have hstate : withImage st image s
      = withFlags rs' ff' l' (listening (loadImage st image).value (loadValues st image) s) := by
    rw [withImage_eq, hconf, beforeImage, hclamp]
    rfl
  obtain ⟨r, hr⟩ := arbitrate_eq (withFlags rs' ff' l' (listening (loadImage st image).value (loadValues st image) s))
  rw [hstate, settle_quiet
    (s := withFlags rs' ff' l' (listening (loadImage st image).value (loadValues st image) s)) h.quiet
    (judgeStanding_loadState (.inl h.start)), hr]
  refine ⟨listeningWith_fields rs' ff' l' r _ _ s, ?_⟩
  rw [beforeImage, hclamp] at hgrow'
  exact (hgrow.configure st.block _).trans hgrow'

/-- R99: the seats beyond the seat count are UNUSED. -/
theorem Listens.seat {t : State} (h : Listens st image s t) {i : Nat} {q : Seat} (hq : s.restraint.seats[i]? = some q) :
    t.restraint.seats[i]? = some (if st.settings.seatCount ≤ i then { q with state := .unused } else q) := by
  have hcount : (loadValues st image).settings.seatCount = st.settings.seatCount := rfl
  rw [h.fields.seats, hcount]
  simp [List.getElem?_zipIdx, hq]

/-- R122, R143: a condition takes the values of the block, and its flag may be set. -/
theorem Listens.record {t : State} (h : Listens st image s t) {id : Nat} {c : Condition} (hc : s.cond.record id = some c) :
    ∃ b, t.cond.record id = some { configuredCondition st.block (loadImage st image).value.clips id c with latched := b }
      ∧ (c.latched = true → b = true) := by
  obtain ⟨hlow, hget⟩ := record_some_iff.mp hc
  have hconf : (configureRecords st.block (loadImage st image).value.clips s.cond.records)[id - 1]?
      = some (configuredCondition st.block (loadImage st image).value.clips id c) := by
    rw [getElem?_configureRecords, hget, Nat.sub_add_cancel hlow, Option.map_some]
  obtain ⟨b, hb, hkeep⟩ := h.flags _ _ hconf
  exact ⟨b, record_some_iff.mpr ⟨hlow, hb⟩, fun hl => hkeep ((configuredCondition_latched ..).trans hl)⟩

theorem latched_listening {u : State} {id : Nat} (h : Latched u id) : Latched (beginListening (loadEnds u)) id := h

/-- What is latched when the values have come into force stays latched. -/
theorem withImage_latched {id : Nat}
    (h : Latched (configure (loadValues st image) (loadImage st image).value.clips (beforeImage st image s)) id) :
    Latched (settle (withImage st image s)) id := by
  rw [withImage_eq]
  exact (latched_listening h).aside (settle_aside _)

/-- R183: a clamp of the load latches CONFIG_CLAMPED. -/
theorem withImage_clamped (ht : TablesOk s) (h : loadClamped st image = true) :
    Latched (settle (withImage st image s)) 1 := by
  have hbefore : Latched (beforeImage st image s) 1 := latchClamped_latched h ht
  exact withImage_latched ((takeValues_latched _ _ hbefore).aside (configure_calm _ _ _).toAside)

/-- R139, R143: a counter that trips by its configuration latches its condition. -/
theorem withImage_trip (hload : InLoad s) (ht : TablesOk s) {k : Nat} (hle : k ≤ 4)
    (hk : k ∈ configuredTrips st.block s.cond.counters) : Latched (settle (withImage st image s)) (19 + k) := by
  have htables : TablesOk (beforeImage st image s) :=
    { Tables.tablesOk_calm ht (latchClamped_calm (loadClamped st image) s) with
      clips := Tables.takeImage_clips_length image st.settings.flashSize st.address }
  have hcounters : (beforeImage st image s).cond.counters = s.cond.counters := (latchClamped_inLoad hload _).counters
  exact withImage_latched (configure_trip_latched (loadValues st image) _ htables hle (by rw [hcounters]; exact hk))

end

/-! ## Conditions and counters under a taken image (R122, R135, R138, R143) -/

/-- R143: the condition in full, by whether it is fixed and whether its response and count stay. -/
theorem condition_taken (block : List Byte) (clips : List (Option Clip)) (id : Nat) (c : Condition) (b : Bool) :
    let q := (takeCondition block clips id).value
    let d := { configuredCondition block clips id c with latched := b }
    (fixedCondition id = true → d = { c with latched := b })
    ∧ (fixedCondition id = false →
      (c.announceFirst = q.announceFirst → c.count = q.count →
        d = { c with latched := b, level := q.level, clip := q.clip })
      ∧ (c.announceFirst ≠ q.announceFirst ∨ c.count ≠ q.count →
        d = { c with
          latched := b, level := q.level, announceFirst := q.announceFirst, count := q.count
          remaining := q.count, escalated := false, clip := q.clip })) := by
  refine ⟨fun hfixed => ?_, fun hfree => ⟨fun ha hc => ?_, fun hchange => ?_⟩⟩
  · rw [configuredCondition_fixed hfixed]
  · rw [configuredCondition_free hfree, configure_same ha hc]
  · rw [configuredCondition_free hfree, configure_changed hchange]

/-- The counter of the listen period. -/
def listeningCounter (block : List Byte) (cs : List Counter) (k : Nat) (c first : Counter) : Counter :=
  chainedArm c (configuredCounter block 1 first).tripped (armedBy (configuredTrips block cs) (configuredCounter block k c))

section
variable (block : List Byte) (cs : List Counter) (k : Nat) (c first : Counter)

theorem listeningCounter_value : (listeningCounter block cs k c first).value = (configuredCounter block k c).value := by
  simp [listeningCounter]

@[simp] theorem listeningCounter_tripped :
    (listeningCounter block cs k c first).tripped = (configuredCounter block k c).tripped := by simp [listeningCounter]

theorem listeningCounter_config : HasConfig (takeCounter block k).value (listeningCounter block cs k c first) :=
  ((configuredCounter_config ..).trans (armedBy_config ..)).trans (chainedArm_config ..)

/-- R143: the counter's configuration is the block's, its value lies between preset and limit. -/
theorem listeningCounter_eq : listeningCounter block cs k c first = { (takeCounter block k).value with
    value := min (takeCounter block k).value.limit (max (takeCounter block k).value.preset c.value)
    tripped := (listeningCounter block cs k c first).tripped
    armed := (listeningCounter block cs k c first).armed } :=
  Eq.trans (listeningCounter_config block cs k c first) (by rw [listeningCounter_value]; rfl)

end

theorem Listens.counter {st : Staged} {image : List Byte} {s t : State} (h : Listens st image s t) {i : Nat}
    {c first : Counter} (hc : s.cond.counters[i]? = some c) (hfirst : s.cond.counters[0]? = some first) :
    t.cond.counters[i]? = some (listeningCounter st.block s.cond.counters (i + 1) c first) := by
  rw [h.fields.counters]
  exact takeValues_counter_eq (loadValues st image) _ hc hfirst

/-- R140: a trip of a counter that freezes leaves the counters frozen. -/
theorem Listens.trip_frozen {st : Staged} {image : List Byte} {s t : State} (h : Listens st image s t) {i : Nat}
    {c : Counter} (hc : s.cond.counters[i]? = some c) (hk : i + 1 ∈ configuredTrips st.block s.cond.counters)
    (hfreeze : (takeCounter st.block (i + 1)).value.freeze = true) : t.cond.frozen = true :=
  h.fields.frozen.trans (configureCounters_frozen hc hk hfreeze)

/-- Settles O14: the state of the listen period field by field, each condition and each counter by the values that the
block gives it, and those values by the block's fields. -/
theorem imageTaken : Obligations.ImageTaken := by
  refine ⟨fun s image st hst hp hr hm hs htables himage => ?_, fun block clips id => ?_, fun block k => ?_⟩
  · have hload := inLoad_of_still hm hs hp
    have ht := settle_withImage (st := st) (image := image) hload
    rw [exec_imageLoadEnd hst hp hr, if_pos himage]
    have hfields := ht.fields
    refine ⟨_, rfl, hfields.state.trans hm, hfields.loader, hfields.route, hfields.table, hfields.clips, hfields.settings,
      hfields.address, hfields.silence, hfields.silent, hfields.queue, hfields.running, hfields.n, hfields.fill,
      fun i q hq => ht.seat hq, hfields.peers, hfields.tracker, hfields.claims, hfields.now,
      fun hc => withImage_clamped htables ?_,
      fun id c _ _ hc => ?_, fun k c first hlow hhigh hc hfirst => ?_,
      fun hf => ht.fields.frozen.trans (configureCounters_stays_frozen st.block hf)⟩
    · show (((loadImage st image).clamped || (loadSettings st image).clamped) || _) = true
      rw [Bool.or_eq_true, Bool.or_eq_true, or_assoc]
      exact hc
    · obtain ⟨b, hb, hkeep⟩ := ht.record hc
      exact ⟨_, hb, hkeep, condition_taken st.block _ id c b⟩
    · obtain ⟨i, rfl⟩ : ∃ i, k = i + 1 := ⟨k - 1, (Nat.sub_add_cancel hlow).symm⟩
      rw [Nat.add_sub_cancel] at hc ⊢
      have hmem := mem_configuredTrips (block := st.block) hc
      refine ⟨_, _, ht.counter hc hfirst, ht.counter hfirst hfirst, listeningCounter_eq .., ?_, fun hd huntripped => ?_,
        fun hq hold => ?_, fun hq hold => ?_, fun hq => armed_unchained hq⟩
      · rw [listeningCounter_tripped, configuredCounter_tripped_iff]
        rfl
      · rw [listeningCounter_tripped] at hd
        have htrip := hmem.mpr ⟨hd, huntripped⟩
        exact ⟨withImage_trip hload htables hhigh htrip, ht.trip_frozen hc htrip⟩
      · rw [listeningCounter_tripped]
        exact armed_becomes_chained hq hold
      · rw [listeningCounter_tripped, ← one_mem_configuredTrips hfirst]
        exact armed_stays_chained hq hold
  · exact ⟨takeCondition_level_none block clips id, fun _ => takeCondition_level_some block clips id,
      takeCondition_announceFirst_iff block clips id, fun _ => takeCondition_count block clips id,
      takeCondition_direct block clips id, takeCondition_clip_iff block clips id⟩
  · obtain ⟨hpos, hmax⟩ := takeCounter_limit_bounds block k
    exact ⟨takeCounter_limit_none block k, fun _ => takeCounter_limit_some block k, takeCounter_preset block k, hpos, hmax,
      takeCounter_preset_lt block k, takeCounter_threshold_le block k, takeCounter_chained block k⟩

end Sys2Proof.StartUp
end

section
/-! LISTEN_EXPIRY (R185, R53, R50, R3): START is left for PARKED or STOPPED, what follows is aside but for the level, and
the beacon becomes due. -/
namespace Sys2Proof.StartUp
open Sys2Proof.Machine Sys2Proof.Safety

theorem exec_listenExpiry {s : State} {t0 : Nat} (hp : s.loader.progress = .listening)
    (he : s.loader.listenExpiry = some t0)
    (hle : t0 ≤ s.now) (hr : s.resetHeld = false) :
    exec .listenExpiry s = .next (settle (beaconAtOnce (leaveStart s))) := by
  show execListenExpiry s = _
  rw [execListenExpiry, hp, he]
  dsimp only
  rw [if_pos (by simp [hle, hr])]

/-! ## The motion state after START (R53, R58, R59) -/

/-- The motion states that no load and no moving vehicle is in. -/
def Resting (m : MotionState) : Prop := m ≠ .start ∧ m ≠ .fault ∧ m ≠ .running ∧ m ≠ .holding

/-- What the shared operations do keeps the vehicle at rest or stopping (R58, Table 4.4). -/
theorem resting_aside {s t : State} (h : Aside s t) (hs : Resting s.motion.state) : Resting t.motion.state := by
  obtain ⟨hstart, hfault, hrunning, hholding⟩ := hs
  refine ⟨mt h.start.mp hstart, mt h.fault.mp hfault, fun e => ?_, fun e => ?_⟩
  · exact hrunning ((h.moving (.inl e)).trans e)
  · exact hholding ((h.moving (.inr e)).trans e)

/-- At level 7 a vehicle that is not in a load stands in ESTOP alone (R59). -/
theorem estop_of_stands {l : Nat} {m : MotionState} (h : Stands l m) (hl : 7 ≤ l) (hm : Resting m) : m = .estop := by
  obtain ⟨hstart, hfault, -, -⟩ := hm
  cases m with
  | start => exact absurd rfl hstart
  | fault => exact absurd rfl hfault
  | estop => rfl
  | parked | ready | running | holding | stopping | stopped =>
    simp only [Stands] at h
    omega

/-! ## START is left (R185) -/

theorem listenEnds_resting (s : State) : Resting (listenEnds s).motion.state := by
  show Resting (if s.tracker.atBerth then MotionState.parked else .stopped)
  split <;> exact ⟨nofun, nofun, nofun, nofun⟩

theorem unfixedStart_calm (s : State) : Calm s (unfixedStart s) := by
  unfold unfixedStart
  split
  · exact latch_calm 25 s
  · exact Calm.refl s

/-- The state to which the level is applied: START left, and UNFIXED_START judged (log 51). -/
def beforeLevel (s : State) : State := unfixedStart (atOnce (listenEnds s))

theorem leaveStart_eq (s : State) : leaveStart s = atOnce (applyLevel (beforeLevel s)) := rfl

theorem beforeLevel_aside (s : State) : Aside (listenEnds s) (beforeLevel s) :=
  ((atOnce_calm _).trans (unfixedStart_calm _)).toAside

theorem leaveStart_after_level (s : State) : Aside (applyLevel (beforeLevel s)) (leaveStart s) := by
  rw [leaveStart_eq]
  exact (atOnce_calm _).toAside

theorem leaveStart_aside (s : State) : Aside (listenEnds s) (leaveStart s) :=
  (beforeLevel_aside s).trans ((applyLevel_aside _).1.trans (leaveStart_after_level s))

theorem leaveStart_unfixed {s : State} (ht : TablesOk s) (h : s.tracker.conf = .unfixed) : Latched (leaveStart s) 25 := by
  have hlisten := atOnce_calm (listenEnds s)
  have hbefore : Latched (beforeLevel s) 25 := by
    have hconf : (atOnce (listenEnds s)).tracker.conf = .unfixed := by
      rw [hlisten.outside.tracker]
      exact h
    rw [beforeLevel, unfixedStart, if_pos hconf]
    refine latch_latched 25 _ (by decide) ?_
    rw [hlisten.grows.length]
    exact Nat.le_of_eq ht.records.symm
  exact hbefore.aside ((applyLevel_aside _).1.trans (leaveStart_after_level s))

/-- R58: level 7 goes on to ESTOP. -/
theorem leaveStart_estop {s : State} (h : 7 ≤ s.level) : (leaveStart s).motion.state = .estop := by
  have hlevel : 7 ≤ (beforeLevel s).level := Nat.le_trans h (beforeLevel_aside s).level
  have happlied := (applyLevel_aside (beforeLevel s)).1
  have hresting := resting_aside happlied (resting_aside (beforeLevel_aside s) (listenEnds_resting s))
  exact (leaveStart_after_level s).estop (estop_of_stands (applyLevel_stands _) hlevel hresting)
    (Nat.le_trans hlevel happlied.level)

/-- R78: PARKED or STOPPED is the one entry that waits when START is left. -/
theorem listenEnds_eq {s : State} (h : s.motion.notices = []) : listenEnds s =
    { s with
      motion := { s.motion with
        state := if s.tracker.atBerth then .parked else .stopped
        notices := [if s.tracker.atBerth then .parked else .stopped] }
      loader := { s.loader with progress := .done, listenExpiry := none } } := by
  unfold listenEnds enter
  rw [h]
  rfl

/-- Settles O16: the leaving of START, the beacon that changes the link and the durations alone, and the settling of both. -/
theorem listenPeriodEnds : Obligations.ListenPeriodEnds := by
  intro s t0 hp he hle hr hm hs htables
  rw [exec_listenExpiry hp he hle hr]
  refine ⟨?_, ?_⟩
  · obtain ⟨l, n, ds, e, hbeacon⟩ := beaconAtOnce_frame (leaveStart s)
    have hleave := leaveStart_aside s
    have haside := settle_aside (beaconAtOnce (leaveStart s))
    rw [e] at haside ⊢
    have hgrows : CondGrows (leaveStart s).cond _ := (durations_grows _ ds).trans haside.grows
    have hresting : Resting (leaveStart s).motion.state := resting_aside hleave (listenEnds_resting s)
    obtain ⟨hstart, hfault, hrunning, hholding⟩ := resting_aside haside hresting
    have hlink := haside.outside.link
    have hout := haside.outside
    have hperiod := hbeacon.timer
    rw [hleave.outside.now, hleave.outside.settings] at hperiod
    have hqueue : l.queue = s.link.queue := hbeacon.queue.trans (congrArg Link.queue hleave.outside.link)
    have hseq : l.seq = s.link.seq := hbeacon.seq.trans (congrArg Link.seq hleave.outside.link)
    refine ⟨_, rfl, ?_, ?_, hstart, hfault, hrunning, hholding, fun h7 => ?_, fun hu => ?_, ?_, ?_, ?_, ?_,
      hout.tracker.trans hleave.outside.tracker, hout.route.trans hleave.outside.route,
      hout.peers.trans hleave.outside.peers, hout.claims.trans hleave.outside.claims,
      hout.settings.trans hleave.outside.settings, hout.now.trans hleave.outside.now, hleave.grows.trans hgrows⟩
    · exact congrArg Loader.progress (hout.loader.trans hleave.outside.loader)
    · exact congrArg Loader.listenExpiry (hout.loader.trans hleave.outside.loader)
    · exact haside.estop (leaveStart_estop h7) (Nat.le_trans h7 hleave.level)
    · exact latched_grows (leaveStart_unfixed htables hu) hgrows
    · rw [hlink]
      exact hbeacon.due
    · rw [hlink]
      exact hperiod
    · rw [hlink]
      exact hqueue
    · rw [hlink]
      exact hseq
  · rw [leaveStart, listenEnds_eq hs.notices]

end Sys2Proof.StartUp
end

section
/-! What a step takes from the queue (log 1), and the invariants right after reset. Where an invariant reads only what
FULL_RESET puts to its full-reset value (R180), the state after reset meets it as the state of a full reset does. -/
namespace Sys2Proof.StepsAndReset
open Sys2Proof.Machine Sys2Proof.Safety Sys2Proof.RideLink

/-! ## One step (log 1) -/

theorem step_cons {c : Instr} {rest : List Instr} {s : State} (h : s.pending = c :: rest) :
    step s = exec c { s with pending := rest } := by
  rw [step, h]

theorem step_nil {s : State} (h : s.pending = []) : step s = .next s := by
  rw [step, h]

/-- The command put at the front is the one taken, and the queue behind it is the one that was there. -/
theorem step_withCommand (c : Instr) (s : State) : step (s.withCommand c) = exec c s :=
  step_cons (s := s.withCommand c) rfl

/-- Settles O1: the queue of a step is a command and its rest, the same with the command just put there, or empty. -/
theorem stepTakesFront : Obligations.StepTakesFront :=
  ⟨fun _ _ _ => step_cons, step_withCommand, fun _ => step_nil⟩

/-! ## The invariants right after reset -/

/-- R17: a full reset of any state leaves of the Link Controller what `LinkOk` reads at the values of reset. -/
theorem linkOk_reset : LinkOk State.reset := linkOk_of_part (linkOk_fullReset State.reset) rfl

/-- R98: the claim list is empty. -/
theorem claimsOk_reset : ClaimsOk State.reset := ZoneClaims.claimsOk_of_empty rfl

/-- R30: every record is EMPTY, the own record with them. -/
theorem peersOk_reset : PeersOk State.reset := PeerTable.peersOk_replicate rfl

/-- R51, R119, R142, R160, R179: the tables after reset are those of a full reset. -/
theorem tablesOk_reset : TablesOk State.reset := Tables.tablesOk_of_part (Tables.tablesOk_fullReset State.reset) rfl

/-- R79, R180: no entry waits, no standing judgement is about START, and during the image load the loader holds the
port. -/
theorem still_reset : Still State.reset := by
  have hjudged : Standing.Judged State.reset := Standing.judged_of_state nofun nofun nofun
  have hgranted : Standing.Granted State.reset := .inl rfl
  exact (Standing.still_iff _).mpr ⟨rfl, hjudged, hgranted⟩

/-- R128: no condition is latched, so none has a part in the level. -/
theorem level_reset : State.reset.level = 0 := by
  refine Nat.le_zero.mp (levelOf_le fun c hc => ?_)
  obtain ⟨level, _, rfl⟩ := List.mem_map.mp hc
  exact Nat.le_refl 0

/-- R142: the level handed on is 0, and START may stand at every level. -/
theorem levelOk_reset : LevelOk State.reset where
  handed := level_reset.symm
  stands := trivial

/-- Settles O3, invariant by invariant. -/
theorem invariantsAtReset : Obligations.InvariantsAtReset :=
  ⟨linkOk_reset, claimsOk_reset, peersOk_reset, tablesOk_reset, still_reset, levelOk_reset⟩

end Sys2Proof.StepsAndReset
end
